-- ==== Sys2Proof/Word.lean ====
section
/-! DEFINITION. The words that cross the ports of the block: the 32-bit pattern (00_scope.md R3, R6), the
104-bit command word and the 34-bit response word (30_encoding.md R55, R56, R58; 20_memory.md R43).

Each is what the spec treats as bits, so each is a bit vector. Everything computed from a pattern stands in
Machine/. -/

namespace Sys2Proof

/-- A u32: a binary32 pattern or a host integer (R3, R58, R59). Bit 0 is the least significant bit (R8). -/
abbrev Word := BitVec 32

/-- The command word `cw[103:0]` (R56). -/
abbrev CommandWord := BitVec 104

/-- The response word `rw[33:0]` (R58). -/
abbrev ResponseWord := BitVec 34

end Sys2Proof
end

