-- ==== Sys2Proof/Config.lean ====
section
/-! DEFINITION. What is fixed when the block is built and what the spec leaves open.

`Cfg` is the configuration record `CFG` of 00_scope.md R7, with the parameter `HOST_BYTE_ORDER` of
92_eei_decisions.md D11. `Config.freeCfg` is one record of which nothing is known. The configuration the block
uses is `Config.cfg` (Machine/Cores.lean): `Config.freeCfg` held to the contracts of R7, R173, R175, R183, R208,
R235, R239, R243 and R250. The three other constants are the free choices of the transport and of the one
unspecified result. No constant here has a body: nothing can be proved of a value of theirs. -/

namespace Sys2Proof

/-- The two values of `HOST_BYTE_ORDER` (20_memory.md R41). -/
inductive ByteOrder where
  | little
  | big
  deriving DecidableEq, Repr, Inhabited

/-- The configuration record `CFG` (R7). A core is a function of its operands alone (R7, R14). -/
structure Cfg where
  /-- `CFG.DEPTH`, the capacity of `INFLIGHT` (R24). -/
  depth : Nat
  /-- `CFG.EXP_OVF_THR` (R173). -/
  expOvfThr : Word
  /-- `CFG.EXP_UDF_THR` (R173). -/
  expUdfThr : Word
  /-- `CFG.exp_core` (R175). -/
  expCore : Word → Word
  /-- `CFG.log_core` (R183). -/
  logCore : Word → Word
  /-- `CFG.pow_core`, applied to `|x|` and `y` (R208; 90_conflicts.md C10). -/
  powCore : Word → Word → Word
  /-- `CFG.atan_core` (R235). -/
  atanCore : Word → Word
  /-- `CFG.asin_core` (R239). -/
  asinCore : Word → Word
  /-- `CFG.acos_core` (R243). -/
  acosCore : Word → Word
  /-- `CFG.atan2_core`, applied to `y` and `x` (R250). -/
  atan2Core : Word → Word → Word
  /-- `HOST_BYTE_ORDER`: no rule reads it, no definition reads it (R41; log entry 15). -/
  hostByteOrder : ByteOrder
  deriving Inhabited

namespace Config

/-- FREE VALUE. An unknown configuration record (R7, 93_implementation_defined.md U8, U9; log entry 10). -/
opaque freeCfg : Cfg

/-- FREE VALUE. The latency of the command accepted in a given cycle, the number of cycles its response still
takes once nothing is ahead of it (70_reset_and_hazards.md R318, U6; log entry 3). -/
opaque freeLatency : Nat → CommandWord → Nat

/-- FREE VALUE. For how many cycles the block goes on holding `cmd_ready` at 0 by its own choice, drawn anew after
every cycle in which it does not (R24, R318, U5; log entry 4). -/
opaque freeReadyGap : Nat → Nat

/-- FREE VALUE. The `r` field of the `ILLEGAL_OP` response made in a given cycle for a given command word
(60_exceptions.md R290, U1; log entry 5). -/
opaque freeIllegalR : Nat → CommandWord → Word

end Config

end Sys2Proof
end

