-- ==== Sys2Proof/Syntax.lean ====
section
/-! DEFINITION. The 33 operations of 30_encoding.md R60, one constructor a row, with the operand fields the row's
format reads (R57) and nothing else: a field an operation does not read is no part of it (R62). -/

namespace Sys2Proof

/-- An operation with its operands. `a`, `b`, `c` are the 32-bit fields of the command word as they stand (R59). -/
inductive Instr where
  /-- op 00, `RAW a`: bit-pattern transfer (R81). -/
  | raw (a : Word)
  /-- op 01, `DSIGN a`: the sign bit (R82). -/
  | dsign (a : Word)
  /-- op 02, `DREXP a`: `RawExponent` (R83). -/
  | drexp (a : Word)
  /-- op 03, `DRMAN a`: `RawMantissa` (R84). -/
  | drman (a : Word)
  /-- op 04, `DEXP a`: signed `Exponent` (R85). -/
  | dexp (a : Word)
  /-- op 05, `DMAN a`: signed `Mantissa` (R86). -/
  | dman (a : Word)
  /-- op 10, `FROMPARTS a, b, c`: sign, biased exponent, mantissa (R87). -/
  | fromparts (a b c : Word)
  /-- op 11, `SCALEB a, b`: pattern and power of two, `b` an s32 (R93). -/
  | scaleb (a b : Word)
  /-- op 20, `NORMMAN a` (R91). -/
  | normman (a : Word)
  /-- op 21, `NORMEXP a` (R92). -/
  | normexp (a : Word)
  /-- op 30, `ADD a, b` (R110). -/
  | add (a b : Word)
  /-- op 31, `SUB a, b` (R115). -/
  | sub (a b : Word)
  /-- op 32, `MUL a, b` (R125). -/
  | mul (a b : Word)
  /-- op 33, `DIV a, b`: `a` the dividend, `b` the divisor (R130). -/
  | div (a b : Word)
  /-- op 34, `NEG a` (R114). -/
  | neg (a : Word)
  /-- op 40, `FLOOR a` (R146). -/
  | floor (a : Word)
  /-- op 41, `CEIL a` (R147). -/
  | ceil (a : Word)
  /-- op 42, `ROUND a` (R148). -/
  | round (a : Word)
  /-- op 43, `TRUNC a` (R149). -/
  | trunc (a : Word)
  /-- op 50, `SQRT a` (R160). -/
  | sqrt (a : Word)
  /-- op 60, `EXP a` (R170). -/
  | exp (a : Word)
  /-- op 68, `LOG a` (R180). -/
  | log (a : Word)
  /-- op 69, `LOG2 a` (R186). -/
  | log2 (a : Word)
  /-- op 6A, `LOG10 a` (R187). -/
  | log10 (a : Word)
  /-- op 6B, `LOGB a, b`: `a` the argument, `b` the base (R185). -/
  | logb (a b : Word)
  /-- op 70, `POW a, b`: `a` the base `x`, `b` the exponent `y` (R195). -/
  | pow (a b : Word)
  /-- op 80, `SIN a` (R215). -/
  | sin (a : Word)
  /-- op 81, `COS a` (R219). -/
  | cos (a : Word)
  /-- op 82, `TAN a` (R220). -/
  | tan (a : Word)
  /-- op 90, `ASIN a` (R237). -/
  | asin (a : Word)
  /-- op 91, `ACOS a` (R241). -/
  | acos (a : Word)
  /-- op 92, `ATAN a` (R233). -/
  | atan (a : Word)
  /-- op 93, `ATAN2 a, b`: `a` is `y`, `b` is `x` (R246). -/
  | atan2 (a b : Word)
  deriving DecidableEq, Repr

end Sys2Proof
end

