-- ==== Sys2Proof/WellFormed.lean ====
section
/-! DEFINITION. What a command word and a configuration must meet before the rules speak of them.

Every term of `Instr` is well-formed: its operands are full 32-bit fields and R59 and R62 restrict no value of one
(R14: every operation is total). What can be ill-formed is a command word, whose `op` may name no operation
(30_encoding.md R61), and a configuration, whose depth or thresholds may be out of range (00_scope.md R7, R173). -/

namespace Sys2Proof

/-- The 33 values of `op` in the table of R60, unit by unit. -/
def legalOps : List (BitVec 8) :=
  [0x00#8, 0x01#8, 0x02#8, 0x03#8, 0x04#8, 0x05#8]      -- decomposer
  ++ [0x10#8, 0x11#8]                                   -- reassembler
  ++ [0x20#8, 0x21#8]                                   -- normalizer
  ++ [0x30#8, 0x31#8, 0x32#8, 0x33#8, 0x34#8]           -- adder, subtractor, multiplier, divider
  ++ [0x40#8, 0x41#8, 0x42#8, 0x43#8]                   -- rounding unit
  ++ [0x50#8]                                           -- square root
  ++ [0x60#8, 0x68#8, 0x69#8, 0x6A#8, 0x6B#8]           -- exponential, logarithms
  ++ [0x70#8]                                           -- power
  ++ [0x80#8, 0x81#8, 0x82#8]                           -- trigonometric
  ++ [0x90#8, 0x91#8, 0x92#8, 0x93#8]                   -- inverse trigonometric

/-- The command word's `op` field names an operation (R60, R61). -/
def commandLegal (w : CommandWord) : Bool := legalOps.contains (w.extractLsb' 96 8)

/-- `CFG.DEPTH` is an integer of at least 1 (R7). -/
def Cfg.depthLegal (c : Cfg) : Bool := 1 ≤ c.depth

/-- `CFG.EXP_OVF_THR` is in the range of R173 item 1. -/
def Cfg.ovfLegal (c : Cfg) : Bool := 0x3F800000#32 < c.expOvfThr && c.expOvfThr ≤ 0x42B17218#32

/-- `CFG.EXP_UDF_THR` is in the range of R173 item 1 and a positive finite pattern. -/
def Cfg.udfLegal (c : Cfg) : Bool := 0x3F800000#32 < c.expUdfThr && c.expUdfThr < 0x7F800000#32

end Sys2Proof
end

