-- ==== Sys2Proof/Decode.lean ====
section
/-! DEFINITION. The command decoder and the encoder (30_encoding.md R55 to R62).

The decoder is total on the 2^104 command words and rejects by name. It looks at `op` and at the fields the
operation's format reads, and at nothing else. A command crosses the port whole, as one 104-bit word; there is no
byte order (20_memory.md R41, R43). -/

namespace Sys2Proof

/-- `cw[103:96]` (R56). -/
def CommandWord.op (w : CommandWord) : BitVec 8 := w.extractLsb' 96 8

/-- `cw[95:64]` (R56). -/
def CommandWord.a (w : CommandWord) : Word := w.extractLsb' 64 32

/-- `cw[63:32]` (R56). -/
def CommandWord.b (w : CommandWord) : Word := w.extractLsb' 32 32

/-- `cw[31:0]` (R56). -/
def CommandWord.c (w : CommandWord) : Word := w.extractLsb' 0 32

/-- Why a command word is no operation: its `op` is none of R60's (R61). -/
inductive Reject where
  | illegalOp (op : BitVec 8)
  deriving DecidableEq, Repr

/-- `cmd.op` selects the row of R60; a value in no row is illegal (R61). -/
def decode (w : CommandWord) : Except Reject Instr :=
  let a := CommandWord.a w
  let b := CommandWord.b w
  let c := CommandWord.c w
  match CommandWord.op w with
  | 0x00#8 => .ok (.raw a)
  | 0x01#8 => .ok (.dsign a)
  | 0x02#8 => .ok (.drexp a)
  | 0x03#8 => .ok (.drman a)
  | 0x04#8 => .ok (.dexp a)
  | 0x05#8 => .ok (.dman a)
  | 0x10#8 => .ok (.fromparts a b c)
  | 0x11#8 => .ok (.scaleb a b)
  | 0x20#8 => .ok (.normman a)
  | 0x21#8 => .ok (.normexp a)
  | 0x30#8 => .ok (.add a b)
  | 0x31#8 => .ok (.sub a b)
  | 0x32#8 => .ok (.mul a b)
  | 0x33#8 => .ok (.div a b)
  | 0x34#8 => .ok (.neg a)
  | 0x40#8 => .ok (.floor a)
  | 0x41#8 => .ok (.ceil a)
  | 0x42#8 => .ok (.round a)
  | 0x43#8 => .ok (.trunc a)
  | 0x50#8 => .ok (.sqrt a)
  | 0x60#8 => .ok (.exp a)
  | 0x68#8 => .ok (.log a)
  | 0x69#8 => .ok (.log2 a)
  | 0x6A#8 => .ok (.log10 a)
  | 0x6B#8 => .ok (.logb a b)
  | 0x70#8 => .ok (.pow a b)
  | 0x80#8 => .ok (.sin a)
  | 0x81#8 => .ok (.cos a)
  | 0x82#8 => .ok (.tan a)
  | 0x90#8 => .ok (.asin a)
  | 0x91#8 => .ok (.acos a)
  | 0x92#8 => .ok (.atan a)
  | 0x93#8 => .ok (.atan2 a b)
  | op => .error (.illegalOp op)

/-- The `op` number of an operation, from the table of R60 (not from the decoder). -/
def Instr.opcode : Instr → BitVec 8
  | .raw _ => 0x00
  | .dsign _ => 0x01
  | .drexp _ => 0x02
  | .drman _ => 0x03
  | .dexp _ => 0x04
  | .dman _ => 0x05
  | .fromparts _ _ _ => 0x10
  | .scaleb _ _ => 0x11
  | .normman _ => 0x20
  | .normexp _ => 0x21
  | .add _ _ => 0x30
  | .sub _ _ => 0x31
  | .mul _ _ => 0x32
  | .div _ _ => 0x33
  | .neg _ => 0x34
  | .floor _ => 0x40
  | .ceil _ => 0x41
  | .round _ => 0x42
  | .trunc _ => 0x43
  | .sqrt _ => 0x50
  | .exp _ => 0x60
  | .log _ => 0x68
  | .log2 _ => 0x69
  | .log10 _ => 0x6A
  | .logb _ _ => 0x6B
  | .pow _ _ => 0x70
  | .sin _ => 0x80
  | .cos _ => 0x81
  | .tan _ => 0x82
  | .asin _ => 0x90
  | .acos _ => 0x91
  | .atan _ => 0x92
  | .atan2 _ _ => 0x93

/-- The mnemonic of an operation, from the table of R60. -/
def Instr.mnemonic : Instr → String
  | .raw _ => "RAW"
  | .dsign _ => "DSIGN"
  | .drexp _ => "DREXP"
  | .drman _ => "DRMAN"
  | .dexp _ => "DEXP"
  | .dman _ => "DMAN"
  | .fromparts _ _ _ => "FROMPARTS"
  | .scaleb _ _ => "SCALEB"
  | .normman _ => "NORMMAN"
  | .normexp _ => "NORMEXP"
  | .add _ _ => "ADD"
  | .sub _ _ => "SUB"
  | .mul _ _ => "MUL"
  | .div _ _ => "DIV"
  | .neg _ => "NEG"
  | .floor _ => "FLOOR"
  | .ceil _ => "CEIL"
  | .round _ => "ROUND"
  | .trunc _ => "TRUNC"
  | .sqrt _ => "SQRT"
  | .exp _ => "EXP"
  | .log _ => "LOG"
  | .log2 _ => "LOG2"
  | .log10 _ => "LOG10"
  | .logb _ _ => "LOGB"
  | .pow _ _ => "POW"
  | .sin _ => "SIN"
  | .cos _ => "COS"
  | .tan _ => "TAN"
  | .asin _ => "ASIN"
  | .acos _ => "ACOS"
  | .atan _ => "ATAN"
  | .atan2 _ _ => "ATAN2"

/-- The operand fields `(a, b, c)` of an operation's command word; a field the format does not read is written as
zero, as the assembler of R63 does (R57, R62). -/
def Instr.operands : Instr → Word × Word × Word
  | .fromparts a b c => (a, b, c)
  | .scaleb a b | .add a b | .sub a b | .mul a b | .div a b | .logb a b | .pow a b | .atan2 a b => (a, b, 0)
  | .raw a | .dsign a | .drexp a | .drman a | .dexp a | .dman a | .normman a | .normexp a | .neg a | .floor a
  | .ceil a | .round a | .trunc a | .sqrt a | .exp a | .log a | .log2 a | .log10 a | .sin a | .cos a | .tan a
  | .asin a | .acos a | .atan a => (a, 0, 0)

/-- `{op[7:0], a[31:0], b[31:0], c[31:0]}` (R56). -/
def commandWord (op : BitVec 8) (a b c : Word) : CommandWord := op ++ a ++ b ++ c

/-- The command word of an operation. -/
def encode (i : Instr) : CommandWord :=
  commandWord i.opcode i.operands.1 i.operands.2.1 i.operands.2.2

/-- What the decoder reads from a command whose bits are `w`, numbered as spec/opcode_table.json numbers them: one word
of 104 bits with `op` on top (R56). Bits at and above `nbits` are zero (log entry 13). -/
def decodeTableWord (nbits w : Nat) : Option Instr :=
  (decode (BitVec.ofNat 104 (w % (1 <<< nbits)))).toOption

end Sys2Proof
end

