-- ==== Sys2Proof/Machine/State.lean ====
section
/-! DEFINITION. The state of the block and of what drives it, as plain data (10_state.md R20 to R29).

`INFLIGHT` and the response port are the spec's state; `inputs`, `held` and `cycle` are the model's own. The block has
no register, program counter, flag, control register, mode or memory (R21, R22, R26, R27, R28). `cmd_ready` is an
output wire computed from this state (`State.cmdReady`, Machine/Ops.lean). -/

namespace Sys2Proof.Machine

/-- The status codes the block produces: `0` = `OK`, `1` = `ILLEGAL_OP`; it never produces `2` or `3` (R58, R291). -/
inductive Status where
  | ok
  | illegalOp
  deriving DecidableEq, Repr

/-- A response `{st, r}` (R58). -/
structure Response where
  st : Status
  r : Word
  deriving DecidableEq, Repr

/-- An accepted command whose response has not been delivered (R24). -/
structure Flight where
  /-- The command word as it was accepted (R43). -/
  word : CommandWord
  /-- For how many more cycles its response is not ready, counted while it is the oldest (R318; log entry 3). -/
  wait : Nat
  deriving DecidableEq, Repr

/-- What the host drives in one cycle (R23). `cmdWord` means nothing while `cmdValid` is 0. -/
structure PortInput where
  rst : Bool
  cmdValid : Bool
  cmdWord : CommandWord
  rspReady : Bool
  deriving DecidableEq, Repr

structure State where
  /-- `INFLIGHT`, oldest first (R24). -/
  inflight : List Flight
  /-- The response port: `none` while `rsp_valid` is 0, else the response on `rsp_word` (R23, R29, U3; log entry 6). -/
  rsp : Option Response
  /-- The model's own: the command word the host presented in the last cycle and the block did not accept, which
  R23 obliges the host to hold (U13; log entry 7). -/
  held : Option CommandWord
  /-- What the host drives in the coming cycles, the next one first (R23; log entry 8). -/
  inputs : List PortInput
  /-- The model's own: the number of cycles gone by, to which the free choices are applied (log entry 9). -/
  cycle : Nat
  deriving DecidableEq, Repr

/-- Why the machine stops with a fault: never. The one fault of the block, `IllegalOp`, is a response and the block
goes on (R290, R296), so there is no constructor. -/
inductive Fault where
  deriving DecidableEq, Repr

/-- Why the model has no next state. -/
inductive Refusal where
  /-- Raised by an arm of `exec` whose instruction has no meaning yet; safe (it stops). No arm uses it. -/
  | notModelled (mnemonic : String)
  /-- Raised by `step`, never by an instruction, in a cycle with `rst = 0` in which the host withdraws or changes a
  command it presented and that was not accepted: the spec does not say what the block does then, and says to
  refuse (R23; 93_implementation_defined.md U13; log entry 7). Safe (it stops). -/
  | handshakeBroken
  deriving DecidableEq, Repr

/-- The state after reset (R29, R310): the queue empty and `rsp_valid` 0. The host drives nothing yet, and the count
of cycles starts at 0 (log entries 7, 8, 9). -/
def State.reset : State where
  inflight := []
  rsp := none
  held := none
  inputs := []
  cycle := 0

end Sys2Proof.Machine
end

