-- ==== Sys2Proof/Machine/Ops.lean ====
section
/-! DEFINITION. The named operations over the state: writing a response, taking the one exception, the ports at a clock
edge, the queue and reset (10_state.md R23, R24, R29; 60_exceptions.md R290; 70_reset_and_hazards.md R310, R311,
R318). -/

namespace Sys2Proof.Machine

/-! ## The response of the command being executed -/

/-- `rsp.st <- OK; rsp.r <- v` (R13). Nothing else changes (R14). -/
def State.respond (s : State) (v : Word) : State := { s with rsp := some ⟨.ok, v⟩ }

/-- `return v` (R13): the end of every operation. -/
def answer (s : State) (v : Word) : Host.Outcome State Fault Refusal := .next (s.respond v)

/-- TAKING THE EXCEPTION: `raise IllegalOp(op)` for the command word `w` (R290). The response carries
`st = ILLEGAL_OP` and an unspecified `r`, a free value (U1; log entry 5). No status, mode or address is saved and
control goes nowhere; there is no return from it (R291, R296). -/
def State.takeIllegalOp (s : State) (w : CommandWord) : State :=
  { s with rsp := some ⟨.illegalOp, Config.freeIllegalR s.cycle w⟩ }

/-- `rw[33:0] = {st, r}` (R58). -/
def Response.word (p : Response) : ResponseWord :=
  (match p.st with
    | .ok => 0#2
    | .illegalOp => 1#2) ++ p.r

/-! ## The output ports -/

/-- `CFG.DEPTH`, at least 1 (R7; log entry 10). -/
def queueDepth : Nat := max Config.freeCfg.depth 1

/-- For how many more cycles, seen from cycle `n`, the block holds `cmd_ready` at 0 by its own choice: it draws a new
finite number after every cycle in which it does not (R24, R318 item 1; log entry 4). -/
def readyCountdown (gap : Nat → Nat) : Nat → Nat
  | 0 => gap 0
  | n + 1 =>
    match readyCountdown gap n with
    | 0 => gap (n + 1)
    | k + 1 => k

/-- In cycle `n` the block does not hold `cmd_ready` at 0 by its own choice. -/
def readyChoice (gap : Nat → Nat) (n : Nat) : Bool := readyCountdown gap n == 0

/-- `cmd_ready`: the queue has room, and the block does not choose to hold it at 0 (R24). -/
def State.cmdReady (s : State) : Bool :=
  decide (s.inflight.length < queueDepth) && readyChoice Config.freeReadyGap s.cycle

/-- `rsp_valid` (R23, R24). -/
def State.rspValid (s : State) : Bool := s.rsp.isSome

/-- `rsp_word`, which means something while `rsp_valid` is 1 (R23, R29). -/
def State.rspWord (s : State) : Option ResponseWord := s.rsp.map Response.word

/-! ## The input ports -/

/-- What the host drives in this cycle. A host with nothing more in its list holds what it was presenting and takes no
response (R23; log entry 8). -/
def State.input (s : State) : PortInput :=
  match s.inputs with
  | p :: _ => p
  | [] => ⟨false, s.held.isSome, s.held.getD 0, false⟩

/-- The command word on the port while `cmd_valid` is 1 (R23). -/
def PortInput.presented (p : PortInput) : Option CommandWord := if p.cmdValid then some p.cmdWord else none

/-- The host does not hold the command it must hold (R23, U13). -/
def State.breaksHandshake (s : State) : Bool :=
  match s.held with
  | none => false
  | some w => s.input.presented != some w

/-- The command word accepted in this cycle: `rst = 0`, `cmd_valid = 1` and `cmd_ready = 1` (R23, R310). -/
def State.accepted (s : State) : Option CommandWord :=
  if s.input.rst then none
  else
    match s.input.presented with
    | none => none
    | some w => if s.cmdReady then some w else none

/-- The response delivered in this cycle: `rst = 0`, `rsp_valid = 1` and `rsp_ready = 1` (R23, R310). -/
def State.delivered (s : State) : Option Response :=
  if s.input.rst then none else if s.input.rspReady then s.rsp else none

/-! ## The clock edge -/

/-- `INFLIGHT` after the cycle's delivery and acceptance: its head removed, the accepted command appended, with the
latency it draws (R24, R318). -/
def State.nextQueue (s : State) : List Flight :=
  (match s.delivered with
    | some _ => s.inflight.tail
    | none => s.inflight)
  ++ (match s.accepted with
    | some w => [⟨w, Config.freeLatency s.cycle w⟩]
    | none => [])

/-- The end of a cycle with `rst = 0`: delivery and acceptance (R23, R24). A response not delivered stays on the port
unchanged; a command not accepted is held by the host (R23). -/
def State.clockEdge (s : State) : State where
  inflight := s.nextQueue
  rsp :=
    match s.delivered with
    | some _ => none
    | none => s.rsp
  held :=
    match s.accepted with
    | some _ => none
    | none => s.input.presented
  inputs := s.inputs.tail
  cycle := s.cycle + 1

/-- The end of a cycle with `rst = 1`: nothing accepted, nothing delivered, the queue discarded and `rsp_valid` 0
(R29, R310, R311). The host is released from holding a command (log entry 7). -/
def State.resetEdge (s : State) : State where
  inflight := []
  rsp := none
  held := none
  inputs := s.inputs.tail
  cycle := s.cycle + 1

/-! ## The oldest command -/

/-- The command word whose response is to be made now: the oldest one, when its latency is over and no response is on
the port (R24, R318; log entry 2). -/
def State.due (s : State) : Option CommandWord :=
  match s.rsp, s.inflight with
  | none, ⟨w, 0⟩ :: _ => some w
  | _, _ => none

/-- One cycle of the oldest command's latency goes by (R318). -/
def State.tick (s : State) : State :=
  match s.rsp, s.inflight with
  | none, ⟨w, k + 1⟩ :: q => { s with inflight := ⟨w, k⟩ :: q }
  | _, _ => s

end Sys2Proof.Machine
end

