-- ==== Sys2Proof/Machine/Operands.lean ====
section
/-! DEFINITION. Reading a 32-bit operand: the three fields of a pattern, putting them together again, and the integer
readings (00_scope.md R3, R8; 30_encoding.md R59), and the named constant patterns (R11, R216, R230; 10_state.md
R25). -/

namespace Sys2Proof.Machine

/-- `S(r) = r[31]` (R8). -/
def sgn (r : Word) : Bool := r.getLsbD 31

/-- `E(r) = r[30:23]`, the biased exponent (R8). -/
def expo (r : Word) : Nat := (r.extractLsb' 23 8).toNat

/-- `M(r) = r[22:0]`, the mantissa field (R8). -/
def mant (r : Word) : Nat := (r.extractLsb' 0 23).toNat

/-- `{ sign, e[7:0], m[22:0] }` (R8, R88): bits of `e` and `m` above their fields are dropped. -/
def pattern (sign : Bool) (e m : Nat) : Word :=
  BitVec.ofBool sign ++ BitVec.ofNat 8 e ++ BitVec.ofNat 23 m

/-- `v as s32`: a word read as two's complement (R8, R59). -/
def asS32 (v : Word) : Int := v.toInt

/-- A host integer as the 32-bit two's complement word of a response (R58). -/
def ofS32 (v : Int) : Word := BitVec.ofInt 32 v

/-- The sign bit in its place, `r & 0x80000000` (R145, R246). -/
def signBit (r : Word) : Word := r &&& 0x80000000#32

namespace Pat

/-! The named constants of R11. -/
abbrev zero : Word := 0x00000000#32
abbrev one : Word := 0x3F800000#32
abbrev minusOne : Word := 0xBF800000#32
abbrev pinf : Word := 0x7F800000#32
abbrev ninf : Word := 0xFF800000#32
/-- The canonical NaN (R11, R12). -/
abbrev cnan : Word := 0xFFC00000#32
abbrev epsilon : Word := 0x00000001#32
abbrev maxValue : Word := 0x7F7FFFFF#32
abbrev minValue : Word := 0xFF7FFFFF#32

/-! The constants of the trigonometric unit (R216) and of the inverse trigonometric unit (R230). -/
abbrev pi : Word := 0x40490FDB#32
abbrev twoPi : Word := 0x40C90FDB#32
abbrev halfPi : Word := 0x3FC90FDB#32
abbrev quarterPi : Word := 0x3F490FDB#32
abbrev threeQuarterPi : Word := 0x4016CBE4#32
abbrev fivePiSq : Word := 0x42456460#32
abbrev sixteen : Word := 0x41800000#32
abbrev four : Word := 0x40800000#32

/-! The values 0.5, 2, 3, 8 and 10, which R183, R186, R187 and R208 name. -/
abbrev half : Word := 0x3F000000#32
abbrev two : Word := 0x40000000#32
abbrev three : Word := 0x40400000#32
abbrev eight : Word := 0x41000000#32
abbrev ten : Word := 0x41200000#32

end Pat

end Sys2Proof.Machine
end

