-- ==== Sys2Proof/Machine/Flags.lean ====
section
/-! DEFINITION. The conditions the units test: the classes of a pattern and the ordering of patterns (00_scope.md R9).

The block has no status flag, no condition code and no sticky exception flag (10_state.md R26): these conditions are
computed inside a unit, used there and kept nowhere. -/

namespace Sys2Proof.Machine

def isNan (r : Word) : Bool := expo r == 255 && mant r != 0

def isInf (r : Word) : Bool := expo r == 255 && mant r == 0

/-- Both `+0` and `-0`. -/
def isZero (r : Word) : Bool := expo r == 0 && mant r == 0

def isSub (r : Word) : Bool := expo r == 0 && mant r != 0

def isFinite (r : Word) : Bool := expo r != 255

def fabs (r : Word) : Word := r &&& 0x7FFFFFFF#32

def fneg (r : Word) : Word := r ^^^ 0x80000000#32

/-- The ordering key, a signed 33-bit integer. -/
def key (r : Word) : Int := if sgn r then -((fabs r).toNat : Int) else (fabs r).toNat

def fpLt (a b : Word) : Bool := !isNan a && !isNan b && decide (key a < key b)

def fpLe (a b : Word) : Bool := !isNan a && !isNan b && decide (key a ≤ key b)

def fpGt (a b : Word) : Bool := fpLt b a

def fpGe (a b : Word) : Bool := fpLe b a

def fpEq (a b : Word) : Bool := !isNan a && !isNan b && decide (key a = key b)

end Sys2Proof.Machine
end

