-- ==== Sys2Proof/Machine/Value.lean ====
section
/-! DEFINITION. The exact value of a finite pattern (00_scope.md R10). It states contracts and claims; no result is
computed through it. -/

namespace Sys2Proof.Machine

/-- The magnitude of R10 and R86: the mantissa, with the implicit leading bit when the exponent field is not 0. Bit 23
of the mantissa field is clear, so adding `0x800000` is the `|` of the rule. -/
def magnitude (r : Word) : Nat := if expo r ≠ 0 then mant r + 0x800000 else mant r

/-- `|val r|` in units of `2^-149`, a natural number: `mag * 2^(max(E, 1) - 1)` (R10). -/
def absUnits (r : Word) : Nat := magnitude r <<< (max (expo r) 1 - 1)

/-- `val r` in units of `2^-149`, an integer: `(-1)^S * mag * 2^(max(E, 1) - 1)` (R10). -/
def units (r : Word) : Int := if sgn r then -(absUnits r : Int) else absUnits r

/-- `val r = (-1)^S * mag * 2^(max(E, 1) - 150)` (R10). -/
def val (r : Word) : Rat := (units r : Rat) / (2 : Rat) ^ 149

/-- `|val r - k| <= 0.001`, for a finite `r` (R175 item 3, R183 items 4 and 5). -/
def near (r : Word) (k : Nat) : Bool :=
  isFinite r && decide ((1000 * (units r - ((k <<< 149 : Nat) : Int))).natAbs ≤ 1 <<< 149)

end Sys2Proof.Machine
end

