-- ==== Sys2Proof/Machine/Decomposer.lean ====
section
/-! DEFINITION. The decomposer: RAW, DSIGN, DREXP, DRMAN, DEXP, DMAN (40_decompose_reassemble.md R81 to R86). -/

namespace Sys2Proof.Machine

/-- The signed mantissa of R86 as an integer, which the adder uses too (R112 step 5). -/
def signedMantissa (a : Word) : Int := if sgn a then -(magnitude a : Int) else magnitude a

/-- RAW (R81). -/
def execRaw (a : Word) (s : State) : Host.Outcome State Fault Refusal := answer s a

/-- DSIGN: `zext_32(a[31])` (R82). -/
def execDsign (a : Word) (s : State) : Host.Outcome State Fault Refusal :=
  answer s ((a.extractLsb' 31 1).zeroExtend 32)

/-- DREXP: `zext_32(a[30:23])` (R83). -/
def execDrexp (a : Word) (s : State) : Host.Outcome State Fault Refusal :=
  answer s ((a.extractLsb' 23 8).zeroExtend 32)

/-- DRMAN: `zext_32(a[22:0])` (R84). -/
def execDrman (a : Word) (s : State) : Host.Outcome State Fault Refusal :=
  answer s ((a.extractLsb' 0 23).zeroExtend 32)

/-- DEXP: `(zext_32(a[30:23]) - 127) as s32` (R85). -/
def execDexp (a : Word) (s : State) : Host.Outcome State Fault Refusal :=
  answer s (ofS32 ((expo a : Int) - 127))

/-- DMAN: the magnitude, negated in two's complement when the sign bit is set; the leading bit is there whenever
`E != 0`, so for an infinity and a NaN too (R86, D14). -/
def execDman (a : Word) (s : State) : Host.Outcome State Fault Refusal :=
  answer s (ofS32 (signedMantissa a))

end Sys2Proof.Machine
end

