-- ==== Sys2Proof/Machine/Normalizer.lean ====
section
/-! DEFINITION. The reassembler and the normalizer: the internal functions `pack`, `normalize_mag` and `norm`, and
FROMPARTS, SCALEB, NORMMAN, NORMEXP (40_decompose_reassemble.md R87 to R93). -/

namespace Sys2Proof.Machine

/-- `pack(sign, absman, e)` (R88): `absman` has its leading one at bit 23 and stands for `absman * 2^(e - 150)`. -/
def pack (sign : Bool) (absman : Nat) (e : Int) : Word :=
  if 255 ≤ e then pattern sign 0xFF 0
  else if 1 ≤ e then pattern sign e.toNat absman
  else
    let sh := (1 - e).toNat
    if 24 ≤ sh then pattern sign 0 0 else pattern sign 0 (absman >>> sh)

/-- `normalize_mag(absman, e)` (R89): the leading one moved to bit 23. -/
def normalizeMag (absman : Nat) (e : Int) : Nat × Int :=
  let p := absman.log2
  if 23 < p then (absman >>> (p - 23), e + ((p - 23 : Nat) : Int))
  else (absman <<< (23 - p), e - ((23 - p : Nat) : Int))

/-- The loop of R90: shift left until bit 23 is set. The first argument bounds the steps. -/
def normLoop : Nat → Nat → Int → Nat × Int
  | 0, m, e => (m, e)
  | n + 1, m, e => if m.testBit 23 then (m, e) else normLoop n (m <<< 1) (e - 1)

/-- `norm(r)`, for a finite nonzero pattern (R90): at most 23 steps. -/
def norm (r : Word) : Nat × Int :=
  if expo r ≠ 0 then (mant r + 0x800000, (expo r : Int)) else normLoop 23 (mant r) 1

/-- The value of SCALEB: `pack` of the exact scaled value, in one step (R93). -/
def fpScaleb (x : Word) (n : Int) : Word :=
  if isNan x then Pat.cnan
  else if isInf x || isZero x then x
  else pack (sgn x) (norm x).1 ((norm x).2 + n)

/-- The value of NORMMAN (R91). -/
def normMan (a : Word) : Word :=
  if isZero a then 0
  else if expo a = 255 then BitVec.ofNat 32 (mant a + 0x800000)
  else BitVec.ofNat 32 (norm a).1

/-- The value of NORMEXP (R92). -/
def normExp (a : Word) : Word :=
  if isZero a then 0
  else if expo a = 255 then 255
  else ofS32 (norm a).2

/-- FROMPARTS: `{ a[0], b[7:0], c[22:0] }` (R87). -/
def execFromparts (a b c : Word) (s : State) : Host.Outcome State Fault Refusal :=
  answer s (pattern (a.getLsbD 0) b.toNat c.toNat)

/-- SCALEB (R93): `b` is read as an s32 (R59). -/
def execScaleb (a b : Word) (s : State) : Host.Outcome State Fault Refusal :=
  answer s (fpScaleb a (asS32 b))

/-- NORMMAN (R91). -/
def execNormman (a : Word) (s : State) : Host.Outcome State Fault Refusal := answer s (normMan a)

/-- NORMEXP (R92). -/
def execNormexp (a : Word) (s : State) : Host.Outcome State Fault Refusal := answer s (normExp a)

end Sys2Proof.Machine
end

