-- ==== Sys2Proof/Machine/AddSub.lean ====
section
/-! DEFINITION. The adder and the subtractor: ADD, NEG, SUB (41_add_sub.md R110 to R115). -/

namespace Sys2Proof.Machine

/-- `add_datapath(x, y)`, steps 5 to 9 (R112), for finite `x`, `y` with `0 <= E(x) - E(y) <= 25`. -/
def addDatapath (x y : Word) : Word :=
  let ex := max (expo x) 1
  let ey := max (expo y) 1
  let d := ex - ey
  let man : Int := signedMantissa x * 64 + (signedMantissa y * 64) >>> d
  if man = 0 then Pat.zero
  else
    let n := normalizeMag man.natAbs ((ex : Int) - 6)
    pack (decide (man < 0)) n.1 n.2

/-- Steps 3 to 9 of R110, for the anchor `x` and the other operand `y` (R111). -/
def addAnchored (x y : Word) : Word :=
  if expo x = 255 then
    if expo y ≠ 255 then x
    else if x = y then x
    else Pat.cnan
  else if 25 < expo x - expo y then x
  else addDatapath x y

/-- The value of ADD (R110): the anchor is the operand with the larger exponent field, `a` when they are equal
(R111). -/
def fpAdd (a b : Word) : Word :=
  if isNan a || isNan b then Pat.cnan
  else if expo a < expo b then addAnchored b a
  else addAnchored a b

/-- The value of NEG: the sign bit flipped (R114). -/
def fpNeg (a : Word) : Word := fneg a

/-- The value of SUB: `ADD(a, NEG(b))` (R115). -/
def fpSub (a b : Word) : Word := fpAdd a (fpNeg b)

/-- ADD (R110). -/
def execAdd (a b : Word) (s : State) : Host.Outcome State Fault Refusal := answer s (fpAdd a b)

/-- SUB (R115). -/
def execSub (a b : Word) (s : State) : Host.Outcome State Fault Refusal := answer s (fpSub a b)

/-- NEG (R114). -/
def execNeg (a : Word) (s : State) : Host.Outcome State Fault Refusal := answer s (fpNeg a)

end Sys2Proof.Machine
end

