-- ==== Sys2Proof/Machine/MulDiv.lean ====
section
/-! DEFINITION. The multiplier and the divider: MUL, DIV (42_mul_div.md R125, R126, R130, R131). -/

namespace Sys2Proof.Machine

/-- The sign of a product or a quotient, `S(a) ^ S(b)`. -/
def xorSign (a b : Word) : Bool := sgn a ^^ sgn b

/-- The signed significand of R126. -/
def signedNorm (a : Word) : Int := if sgn a then -((norm a).1 : Int) else (norm a).1

/-- `mul_datapath(a, b)` (R126), for finite nonzero operands: the shift of the signed product floors (D18). -/
def mulDatapath (a b : Word) : Word :=
  let man : Int := (signedNorm a * signedNorm b) >>> 23
  let absman := man.natAbs
  let e := (norm a).2 + (norm b).2 - 127
  if absman.testBit 24 || absman == 0x2000000 then pack (decide (man < 0)) (absman >>> 1) (e + 1)
  else pack (decide (man < 0)) absman e

/-- The value of MUL (R125). -/
def fpMul (a b : Word) : Word :=
  if isNan a || isNan b then Pat.cnan
  else if isInf a || isInf b then
    if isZero a || isZero b then Pat.cnan else pattern (xorSign a b) 0xFF 0
  else if isZero a || isZero b then pattern (xorSign a b) 0 0
  else mulDatapath a b

/-- `div_datapath(a, b)` (R131), for finite nonzero operands: magnitudes, truncating. -/
def divDatapath (a b : Word) : Word :=
  let q := ((norm a).1 <<< 23) / (norm b).1
  let e := (norm a).2 - (norm b).2 + 127
  if q.testBit 23 then pack (xorSign a b) q e else pack (xorSign a b) (q <<< 1) (e - 1)

/-- The value of DIV (R130), the lines in the rule's order. -/
def fpDiv (a b : Word) : Word :=
  if isNan a || isNan b then Pat.cnan
  else if isInf a then
    if isInf b then Pat.cnan else pattern (xorSign a b) 0xFF 0
  else if isInf b then pattern (xorSign a b) 0 0
  else if isZero b then
    if isZero a then Pat.cnan else pattern (xorSign a b) 0xFF 0
  else if isZero a then pattern (xorSign a b) 0 0
  else divDatapath a b

/-- MUL (R125). -/
def execMul (a b : Word) (s : State) : Host.Outcome State Fault Refusal := answer s (fpMul a b)

/-- DIV (R130). -/
def execDiv (a b : Word) (s : State) : Host.Outcome State Fault Refusal := answer s (fpDiv a b)

end Sys2Proof.Machine
end

