-- ==== Sys2Proof/Machine/Cores.lean ====
section
/-! DEFINITION. The configuration the block uses: an unknown record held to the contracts the spec states of it
(00_scope.md R7; 45_exp_log.md R173, R175, R183; 46_pow.md R208; 48_inverse_trig.md R235, R239, R243, R250).

`Cfg.legalise` keeps every field of a record that meets its contract and replaces what breaks it. So `Config.cfg` meets
every contract, and every record that meets them is one `Config.cfg` may be: nothing more can be proved of it than
the contracts give (log entries 10, 11, 19). -/

namespace Sys2Proof.Machine

/-- A result that is not a NaN and has sign bit 0 (R175 item 2, R208 item 2): itself if it is one, else its magnitude,
or `+inf` for a NaN. -/
def positiveOrInf (r : Word) : Word := if isNan r then Pat.pinf else fabs r

/-- A result with the sign bit of `a` and a magnitude pattern of at most `bound` (R235, R239, R250 item 2). -/
def signedBelow (bound a r : Word) : Word := signBit a ||| (if fabs r ≤ bound then fabs r else bound)

/-- `exp_core(ONE)` must be such that some `log_core` brings `LOG` of it within 0.001 of 1 (R175 item 3, R183 items 2
to 4; log entry 19): finite, at least 0.5, and not 1. -/
def expOneLegal (r : Word) : Bool := isFinite r && !sgn r && decide (Pat.half ≤ r) && r != Pat.one

/-- What R183 items 2 and 3 ask of `log_core(a) = r`, and item 4 when `a` is `e1 = exp_core(ONE)`. -/
def logPointLegal (e1 a r : Word) : Bool :=
  isFinite r
  && (if a < Pat.half then sgn r && !isZero r else true)
  && (if Pat.two ≤ a then !sgn r && !isZero r else true)
  && (if a = e1 then near r 1 else true)

/-- `r` where it is legal, else a stand-in that is. -/
def logPoint (e1 : Word) (core : Word → Word) (a : Word) : Word :=
  if logPointLegal e1 a (core a) then core a
  else if a < Pat.half then Pat.minusOne
  else Pat.one

/-- A stand-in for `log_core` at 2 and at 8 that meets R183 items 3 to 5 whatever `e1` is: the logarithms to base 2,
or to base 8 when `e1` is 8. -/
def logStandIn (e1 a : Word) : Word :=
  if e1 = Pat.eight then (if a = Pat.eight then Pat.one else 0x3EAAAAAB#32)
  else if a = Pat.eight then Pat.three else Pat.one

/-- `log_core` held to R183. -/
def legalLogCore (e1 : Word) (core : Word → Word) (a : Word) : Word :=
  if (a = Pat.two ∨ a = Pat.eight) ∧ near (fpDiv (logPoint e1 core Pat.eight) (logPoint e1 core Pat.two)) 3 = false
  then logStandIn e1 a
  else logPoint e1 core a

/-- `exp_core` held to R175. -/
def legalExpCore (core : Word → Word) (a : Word) : Word :=
  let r := positiveOrInf (core a)
  if a = Pat.one ∧ expOneLegal r = false then 0x402DF854#32 else r

/-- `pow_core` held to R208. -/
def legalPowCore (core : Word → Word → Word) (x y : Word) : Word :=
  if x = Pat.two ∧ y = Pat.three then Pat.eight else positiveOrInf (core x y)

/-- A record of which every field meets its contract. -/
def Cfg.legalise (c : Cfg) : Cfg where
  depth := max c.depth 1
  expOvfThr := if c.ovfLegal then c.expOvfThr else 0x42B17218#32
  expUdfThr := if c.udfLegal then c.expUdfThr else 0x42CFF1B5#32
  expCore := legalExpCore c.expCore
  logCore := legalLogCore (legalExpCore c.expCore Pat.one) c.logCore
  powCore := legalPowCore c.powCore
  atanCore a := signedBelow Pat.halfPi a (c.atanCore a)
  asinCore a := signedBelow Pat.halfPi a (c.asinCore a)
  acosCore a := signedBelow Pat.pi Pat.zero (c.acosCore a)
  atan2Core y x := signedBelow Pat.pi y (c.atan2Core y x)
  hostByteOrder := c.hostByteOrder

end Sys2Proof.Machine

namespace Sys2Proof

/-- The record `CFG` of the block, fixed when it is built (R7, R27). -/
def Config.cfg : Cfg := Machine.Cfg.legalise Config.freeCfg

end Sys2Proof
end

