-- ==== Sys2Proof/Machine/ExpLog.lean ====
section
/-! DEFINITION. The exponential and the logarithms: EXP, LOG, LOGB, LOG2, LOG10 (45_exp_log.md R170, R171, R180, R185 to
R187). A value is a function of the configuration record and the operands (R7, R14). -/

namespace Sys2Proof.Machine

/-- The value of EXP, lines 1 to 7 (R170). The thresholds are compared as unsigned patterns. -/
def fpExp (c : Cfg) (a : Word) : Word :=
  if isNan a then Pat.cnan
  else if a = Pat.pinf then Pat.pinf
  else if a = Pat.ninf then Pat.zero
  else if isZero a then Pat.one
  else if !sgn a && decide (c.expOvfThr ≤ a) then Pat.pinf
  else if sgn a && decide (c.expUdfThr ≤ fabs a) then Pat.zero
  else c.expCore a

/-- The value of LOG, lines 1 to 6 (R180). -/
def fpLog (c : Cfg) (a : Word) : Word :=
  if isNan a then Pat.cnan
  else if isZero a then Pat.ninf
  else if sgn a then Pat.cnan
  else if a = Pat.pinf then Pat.pinf
  else if a = Pat.one then Pat.zero
  else c.logCore a

/-- The value of LOGB: `DIV(LOG(a), LOG(b))` (R185). -/
def fpLogb (c : Cfg) (a b : Word) : Word := fpDiv (fpLog c a) (fpLog c b)

/-- The value of LOG2: LOGB with the base 2 (R186). -/
def fpLog2 (c : Cfg) (a : Word) : Word := fpLogb c a Pat.two

/-- The value of LOG10: LOGB with the base 10 (R187). -/
def fpLog10 (c : Cfg) (a : Word) : Word := fpLogb c a Pat.ten

/-- EXP (R170). -/
def execExp (a : Word) (s : State) : Host.Outcome State Fault Refusal := answer s (fpExp Config.cfg a)

/-- LOG (R180). -/
def execLog (a : Word) (s : State) : Host.Outcome State Fault Refusal := answer s (fpLog Config.cfg a)

/-- LOG2 (R186). -/
def execLog2 (a : Word) (s : State) : Host.Outcome State Fault Refusal := answer s (fpLog2 Config.cfg a)

/-- LOG10 (R187). -/
def execLog10 (a : Word) (s : State) : Host.Outcome State Fault Refusal := answer s (fpLog10 Config.cfg a)

/-- LOGB (R185). -/
def execLogb (a b : Word) (s : State) : Host.Outcome State Fault Refusal := answer s (fpLogb Config.cfg a b)

end Sys2Proof.Machine
end

