-- ==== Sys2Proof/Machine/InverseTrig.lean ====
section
/-! DEFINITION. The inverse trigonometric unit: ATAN, ASIN, ACOS, ATAN2 (48_inverse_trig.md R230 to R250). -/

namespace Sys2Proof.Machine

/-- The value of ATAN (R233). -/
def fpAtan (c : Cfg) (a : Word) : Word :=
  if isNan a then Pat.cnan
  else if isInf a then signBit a ||| Pat.halfPi
  else if isZero a then a
  else c.atanCore a

/-- The value of ASIN (R237). -/
def fpAsin (c : Cfg) (a : Word) : Word :=
  if isNan a then Pat.cnan
  else if Pat.one < fabs a then Pat.cnan
  else if fabs a = Pat.one then signBit a ||| Pat.halfPi
  else if fabs a = Pat.zero then a
  else c.asinCore a

/-- The value of ACOS (R241). -/
def fpAcos (c : Cfg) (a : Word) : Word :=
  if isNan a then Pat.cnan
  else if Pat.one < fabs a then Pat.cnan
  else if a = Pat.one then Pat.zero
  else if a = Pat.minusOne then Pat.pi
  else c.acosCore a

/-- The value of ATAN2, the lines in the rule's order (R246); `y` is the operand `a` and `x` the operand `b`. -/
def fpAtan2 (c : Cfg) (y x : Word) : Word :=
  if isNan y || isNan x then Pat.cnan
  else if isZero y then
    if sgn x then signBit y ||| Pat.pi else y
  else if isZero x then signBit y ||| Pat.halfPi
  else if isInf x then
    if isInf y then signBit y ||| (if sgn x then Pat.threeQuarterPi else Pat.quarterPi)
    else signBit y ||| (if sgn x then Pat.pi else Pat.zero)
  else if isInf y then signBit y ||| Pat.halfPi
  else c.atan2Core y x

/-- ASIN (R237). -/
def execAsin (a : Word) (s : State) : Host.Outcome State Fault Refusal := answer s (fpAsin Config.cfg a)

/-- ACOS (R241). -/
def execAcos (a : Word) (s : State) : Host.Outcome State Fault Refusal := answer s (fpAcos Config.cfg a)

/-- ATAN (R233). -/
def execAtan (a : Word) (s : State) : Host.Outcome State Fault Refusal := answer s (fpAtan Config.cfg a)

/-- ATAN2 (R246). -/
def execAtan2 (a b : Word) (s : State) : Host.Outcome State Fault Refusal := answer s (fpAtan2 Config.cfg a b)

end Sys2Proof.Machine
end

