-- ==== Sys2Proof/Machine/Power.lean ====
section
/-! DEFINITION. The power unit: POW (46_pow.md R195, R196, R208). -/

namespace Sys2Proof.Machine

/-- What R196 says of the value of a finite nonzero exponent. -/
inductive YClass where
  | nonint
  | odd
  | even
  deriving DecidableEq, Repr

/-- `yclass(y)` (R196). -/
def yclass (y : Word) : YClass :=
  let ay := (fabs y).toNat
  if 0x4B800000 ≤ ay then .even
  else if ay < 0x3F800000 then .nonint
  else
    let k := (ay >>> 23) - 127
    let j := ay >>> (23 - k)
    if j <<< (23 - k) ≠ ay then .nonint
    else if j % 2 = 1 then .odd
    else .even

/-- Lines 5 to 10 of R195, for finite nonzero `y` and `x` neither a NaN nor `+1`. -/
def powFiniteExponent (c : Cfg) (x y : Word) : Word :=
  let ax := fabs x
  let sn := sgn x && yclass y == .odd
  if ax = Pat.pinf ∨ ax = Pat.zero then
    if (ax == Pat.pinf) != sgn y then pattern sn 0xFF 0 else pattern sn 0 0
  else if sgn x ∧ yclass y = .nonint then Pat.cnan
  else if ax = Pat.one then pattern sn 0x7F 0
  else (if sn then 0x80000000#32 else 0) ||| c.powCore ax y

/-- The value of POW, the lines in the rule's order (R195). -/
def fpPow (c : Cfg) (x y : Word) : Word :=
  if fabs y = Pat.zero then Pat.one
  else if x = Pat.one then Pat.one
  else if isNan x || isNan y then Pat.cnan
  else if isInf y then
    if fabs x = Pat.one then Pat.one
    else if Pat.one < fabs x then (if sgn y then Pat.zero else Pat.pinf)
    else (if sgn y then Pat.pinf else Pat.zero)
  else powFiniteExponent c x y

/-- POW (R195). -/
def execPow (a b : Word) (s : State) : Host.Outcome State Fault Refusal := answer s (fpPow Config.cfg a b)

end Sys2Proof.Machine
end

