-- ==== Sys2Proof/Machine/Rounding.lean ====
section
/-! DEFINITION. The rounding unit: FLOOR, CEIL, ROUND, TRUNC (43_rounding.md R145 to R149). -/

namespace Sys2Proof.Machine

inductive RoundMode where
  | floor
  | ceil
  | round
  | trunc
  deriving DecidableEq, Repr

/-- `small(a, s, e, mode)` (R146 to R149): the result for `0 < |a| < 1`; `s` is the sign bit in place and `e` the signed
exponent. -/
def roundSmall (s : Word) (e : Int) : RoundMode → Word
  | .floor => if s = 0 then 0x00000000#32 else 0xBF800000#32
  | .ceil => if s = 0 then 0x3F800000#32 else 0x80000000#32
  | .round => if e = -1 then s ||| 0x3F800000#32 else s
  | .trunc => s

/-- `pick(a, s, e, mask, t, up, mode)` (R146 to R149), with `frac = a & mask` and `half` the mask bit of weight 0.5. -/
def roundPick (s frac half t up : Word) : RoundMode → Word
  | .floor => if s = 0 then t else up
  | .ceil => if s = 0 then up else t
  | .round => if half ≤ frac then up else t
  | .trunc => t

/-- The common skeleton `round_unit(a, mode)` (R145). -/
def roundUnit (mode : RoundMode) (a : Word) : Word :=
  if isNan a then Pat.cnan
  else
    let e : Int := (expo a : Int) - 127
    let s := signBit a
    if 23 ≤ e then a
    else if e < 0 then
      if isZero a then a else roundSmall s e mode
    else
      let mask := 0x007FFFFF#32 >>> e.toNat
      if a &&& mask = 0 then a
      else
        let t := a &&& ~~~mask
        let up := t + 0x00800000#32 >>> e.toNat
        roundPick s (a &&& mask) (0x00400000#32 >>> e.toNat) t up mode

/-- The value of FLOOR (R146). -/
def fpFloor (a : Word) : Word := roundUnit .floor a

/-- The value of CEIL (R147). -/
def fpCeil (a : Word) : Word := roundUnit .ceil a

/-- The value of ROUND: a tie goes away from zero (R148; 90_conflicts.md C1). -/
def fpRound (a : Word) : Word := roundUnit .round a

/-- The value of TRUNC (R149). -/
def fpTrunc (a : Word) : Word := roundUnit .trunc a

/-- FLOOR (R146). -/
def execFloor (a : Word) (s : State) : Host.Outcome State Fault Refusal := answer s (fpFloor a)

/-- CEIL (R147). -/
def execCeil (a : Word) (s : State) : Host.Outcome State Fault Refusal := answer s (fpCeil a)

/-- ROUND (R148). -/
def execRound (a : Word) (s : State) : Host.Outcome State Fault Refusal := answer s (fpRound a)

/-- TRUNC (R149). -/
def execTrunc (a : Word) (s : State) : Host.Outcome State Fault Refusal := answer s (fpTrunc a)

end Sys2Proof.Machine
end

