-- ==== Sys2Proof/Machine/SquareRoot.lean ====
section
/-! DEFINITION. The square-root unit: SQRT (44_sqrt.md R160 to R162). -/

namespace Sys2Proof.Machine

/-- The digit loop of R162, `n` iterations left, the guess bit being `2^(n - 1)`: the remainder `ix` and the root `q`
after the last one. -/
def sqrtLoop : (n ix q s : Nat) → Nat × Nat
  | 0, ix, q, _ => (ix, q)
  | n + 1, ix, q, s =>
    let r := 1 <<< n
    let t := s + r
    if t ≤ ix then sqrtLoop n ((ix - t) + (ix - t)) (q + r) (t + r) else sqrtLoop n (ix + ix) q s

/-- `sqrt_datapath(a)` (R162), for finite `a > 0`. The 32-bit registers of the listing never overflow (log entry 20);
the last addition is u32. -/
def sqrtDatapath (a : Word) : Word :=
  let ue : Int := (norm a).2 - 127
  let ix := if ue % 2 = 1 then (norm a).1 + (norm a).1 else (norm a).1
  let d := sqrtLoop 25 (ix + ix) 0 0
  let q := if d.1 ≠ 0 then d.2 + d.2 % 2 else d.2
  BitVec.ofInt 32 ((q >>> 1 : Nat) + 0x3F000000 + (ue >>> 1) * 0x800000)

/-- The value of SQRT (R160). -/
def fpSqrt (a : Word) : Word :=
  if isNan a then Pat.cnan
  else if isZero a then a
  else if sgn a then Pat.cnan
  else if isInf a then a
  else sqrtDatapath a

/-- SQRT (R160). -/
def execSqrt (a : Word) (s : State) : Host.Outcome State Fault Refusal := answer s (fpSqrt a)

end Sys2Proof.Machine
end

