-- ==== Sys2Proof/Machine/Trig.lean ====
section
/-! DEFINITION. The trigonometric unit: SIN, COS, TAN (47_trig.md R215 to R220). It has no open parameter. -/

namespace Sys2Proof.Machine

/-- The shift-and-subtract loop of R217, for the divisor significand `my`. -/
def remainderLoop (my : Nat) : Nat → Nat → Nat
  | 0, r => r
  | n + 1, r => remainderLoop my n ((if my ≤ r then r - my else r) <<< 1)

/-- `fmod_2pi(a)`, for finite `a` (R217). `norm(TWO_PI) = (0xC90FDB, 129)`. -/
def fmodTwoPi (a : Word) : Word :=
  if isZero a then a
  else
    let mx := (norm a).1
    let ex := (norm a).2
    let my := 0xC90FDB
    if ex < 129 ∨ (ex = 129 ∧ mx < my) then a
    else
      let r' := remainderLoop my (ex - 129).toNat mx
      let r := if my ≤ r' then r' - my else r'
      if r = 0 then pattern (sgn a) 0 0
      else
        let n := normalizeMag r 129
        pack (sgn a) n.1 n.2

/-- `bhaskara(x)`, for `0 <= x <= PI`, in the rule's order of evaluation (R218). -/
def bhaskara (x : Word) : Word :=
  let p := fpSub Pat.pi x
  let num := fpMul (fpMul Pat.sixteen x) p
  let t := fpMul (fpMul Pat.four x) p
  let den := fpSub Pat.fivePiSq t
  fpDiv num den

/-- Line 3 of R215: a negative remainder brought into `[0, 2pi]`. -/
def sinWrap (x : Word) : Word := if fpLt x Pat.zero then fpAdd x Pat.twoPi else x

/-- Lines 4 to 7 of R215: the upper half is reflected and negated. -/
def sinReflect (x : Word) : Word :=
  if fpGt x Pat.pi then fpNeg (bhaskara (fpSub Pat.twoPi x)) else bhaskara x

/-- The value of SIN (R215). -/
def fpSin (a : Word) : Word :=
  if isNan a || isInf a then Pat.cnan else sinReflect (sinWrap (fmodTwoPi a))

/-- The value of COS: `SIN(ADD(a, HALF_PI))` (R219). -/
def fpCos (a : Word) : Word := fpSin (fpAdd a Pat.halfPi)

/-- The value of TAN: `DIV(SIN(a), COS(a))` (R220). -/
def fpTan (a : Word) : Word := fpDiv (fpSin a) (fpCos a)

/-- SIN (R215). -/
def execSin (a : Word) (s : State) : Host.Outcome State Fault Refusal := answer s (fpSin a)

/-- COS (R219). -/
def execCos (a : Word) (s : State) : Host.Outcome State Fault Refusal := answer s (fpCos a)

/-- TAN (R220). -/
def execTan (a : Word) (s : State) : Host.Outcome State Fault Refusal := answer s (fpTan a)

end Sys2Proof.Machine
end

