-- ==== Sys2Proof/Machine/Dispatch.lean ====
section
/-! DEFINITION. The dispatch of 30_encoding.md R60: one arm per operation. -/

namespace Sys2Proof.Machine

def exec (i : Instr) (s : State) : Host.Outcome State Fault Refusal :=
  match i with
  | .raw a => Sys2Proof.Machine.execRaw a s
  | .dsign a => Sys2Proof.Machine.execDsign a s
  | .drexp a => Sys2Proof.Machine.execDrexp a s
  | .drman a => Sys2Proof.Machine.execDrman a s
  | .dexp a => Sys2Proof.Machine.execDexp a s
  | .dman a => Sys2Proof.Machine.execDman a s
  | .fromparts a b c => Sys2Proof.Machine.execFromparts a b c s
  | .scaleb a b => Sys2Proof.Machine.execScaleb a b s
  | .normman a => Sys2Proof.Machine.execNormman a s
  | .normexp a => Sys2Proof.Machine.execNormexp a s
  | .add a b => Sys2Proof.Machine.execAdd a b s
  | .sub a b => Sys2Proof.Machine.execSub a b s
  | .mul a b => Sys2Proof.Machine.execMul a b s
  | .div a b => Sys2Proof.Machine.execDiv a b s
  | .neg a => Sys2Proof.Machine.execNeg a s
  | .floor a => Sys2Proof.Machine.execFloor a s
  | .ceil a => Sys2Proof.Machine.execCeil a s
  | .round a => Sys2Proof.Machine.execRound a s
  | .trunc a => Sys2Proof.Machine.execTrunc a s
  | .sqrt a => Sys2Proof.Machine.execSqrt a s
  | .exp a => Sys2Proof.Machine.execExp a s
  | .log a => Sys2Proof.Machine.execLog a s
  | .log2 a => Sys2Proof.Machine.execLog2 a s
  | .log10 a => Sys2Proof.Machine.execLog10 a s
  | .logb a b => Sys2Proof.Machine.execLogb a b s
  | .pow a b => Sys2Proof.Machine.execPow a b s
  | .sin a => Sys2Proof.Machine.execSin a s
  | .cos a => Sys2Proof.Machine.execCos a s
  | .tan a => Sys2Proof.Machine.execTan a s
  | .asin a => Sys2Proof.Machine.execAsin a s
  | .acos a => Sys2Proof.Machine.execAcos a s
  | .atan a => Sys2Proof.Machine.execAtan a s
  | .atan2 a b => Sys2Proof.Machine.execAtan2 a b s

end Sys2Proof.Machine
end

