-- ==== Sys2Proof/Machine/Step.lean ====
section
/-! DEFINITION. One step: one cycle of `clk` (10_state.md R23, R24; 70_reset_and_hazards.md R310; log entries 1, 2, 12). -/

namespace Sys2Proof.Machine

/-- After the clock edge: if the oldest command's response is due it is made now, by running the operation its word
decodes to or, for an `op` that names none, by the exception `IllegalOp` (R24, R60, R61, R290); else one cycle of its
latency goes by (R318). -/
def runHead (s : State) : Host.Outcome State Fault Refusal :=
  match s.due with
  | none => .next s.tick
  | some w =>
    match decode w with
    | .ok i => exec i s
    | .error _ => .next (s.takeIllegalOp w)

/-- One cycle. Reset takes precedence over everything (R295, R310); a host that does not hold its command is refused
(U13); else the ports are sampled and the oldest command is worked on. -/
def step (s : State) : Host.Outcome State Fault Refusal :=
  if s.input.rst then .next s.resetEdge
  else if s.breaksHandshake then .refused .handshakeBroken
  else runHead s.clockEdge

/-- `s` with the command of bits `w` (as `decodeTableWord` reads them) as the oldest accepted command, its latency over,
no response on the port, and a next cycle in which the host neither resets, nor takes a response, nor stops holding
a command: the next step executes it (log entry 12). -/
def State.withFetchWord (s : State) (nbits w : Nat) : State :=
  { s with
    inflight := ⟨BitVec.ofNat 104 (w % (1 <<< nbits)), 0⟩ :: s.inflight.tail
    rsp := none
    inputs := ⟨false, s.held.isSome, s.held.getD 0, false⟩ :: s.inputs }

end Sys2Proof.Machine
end

