-- ==== Sys2Proof/Machine/Assembler.lean ====
section
/-! DEFINITION. The textual syntax of 30_encoding.md R63 in abstract form: from a line's mnemonic and operands to the
command word. It is the host's tool, not the block's; how characters are split into these parts is not modelled (log
entry 18). What the rule leaves open of a line is in log entries 22, 23 and 26. -/

namespace Sys2Proof.Machine

/-- The operand formats of R57. -/
inductive Format where
  | u
  | b
  | t
  deriving DecidableEq, Repr

/-- A row of R60: mnemonic, `op` number and format. -/
structure OpRow where
  mnemonic : String
  op : BitVec 8
  format : Format
  deriving DecidableEq, Repr

/-- The table of R60. -/
def opTable : List OpRow :=
  [⟨"RAW", 0x00, .u⟩, ⟨"DSIGN", 0x01, .u⟩, ⟨"DREXP", 0x02, .u⟩, ⟨"DRMAN", 0x03, .u⟩, ⟨"DEXP", 0x04, .u⟩,
    ⟨"DMAN", 0x05, .u⟩]
  ++ [⟨"FROMPARTS", 0x10, .t⟩, ⟨"SCALEB", 0x11, .b⟩, ⟨"NORMMAN", 0x20, .u⟩, ⟨"NORMEXP", 0x21, .u⟩]
  ++ [⟨"ADD", 0x30, .b⟩, ⟨"SUB", 0x31, .b⟩, ⟨"MUL", 0x32, .b⟩, ⟨"DIV", 0x33, .b⟩, ⟨"NEG", 0x34, .u⟩]
  ++ [⟨"FLOOR", 0x40, .u⟩, ⟨"CEIL", 0x41, .u⟩, ⟨"ROUND", 0x42, .u⟩, ⟨"TRUNC", 0x43, .u⟩, ⟨"SQRT", 0x50, .u⟩]
  ++ [⟨"EXP", 0x60, .u⟩, ⟨"LOG", 0x68, .u⟩, ⟨"LOG2", 0x69, .u⟩, ⟨"LOG10", 0x6A, .u⟩, ⟨"LOGB", 0x6B, .b⟩]
  ++ [⟨"POW", 0x70, .b⟩, ⟨"SIN", 0x80, .u⟩, ⟨"COS", 0x81, .u⟩, ⟨"TAN", 0x82, .u⟩]
  ++ [⟨"ASIN", 0x90, .u⟩, ⟨"ACOS", 0x91, .u⟩, ⟨"ATAN", 0x92, .u⟩, ⟨"ATAN2", 0x93, .b⟩]

/-- `match = op << 96` (R60). -/
def OpRow.matchBits (row : OpRow) : CommandWord := row.op.zeroExtend 104 <<< 96

/-- `mask = 0xFF << 96` (R60). -/
def opMask : CommandWord := 0xFF#104 <<< 96

/-- How many operand fields a format reads (R57). -/
def Format.arity : Format → Nat
  | .u => 1
  | .b => 2
  | .t => 3

/-- The operand fields a format reads, the others zero (R57, R62). -/
def Format.fields (f : Format) (a b c : Word) : Word × Word × Word :=
  match f with
  | .u => (a, 0, 0)
  | .b => (a, b, 0)
  | .t => (a, b, c)

/-- The named constants an operand may be (R11, R63, R216, R230). -/
def namedConstants : List (String × Word) :=
  [("ZERO", Pat.zero), ("ONE", Pat.one), ("MINUSONE", Pat.minusOne), ("PINF", Pat.pinf), ("NINF", Pat.ninf),
    ("CNAN", Pat.cnan), ("EPSILON", Pat.epsilon), ("MAXVALUE", Pat.maxValue), ("MINVALUE", Pat.minValue)]
  ++ [("PI", Pat.pi), ("TWO_PI", Pat.twoPi), ("HALF_PI", Pat.halfPi), ("QUARTER_PI", Pat.quarterPi),
    ("THREE_QUARTER_PI", Pat.threeQuarterPi)]

/-- An operand of a line (R63). -/
inductive AsmOperand where
  /-- `0x40490FDB` -/
  | hex (v : Word)
  /-- `#-3`, standing for its 32-bit two's complement pattern. -/
  | dec (v : Int)
  /-- A named constant. -/
  | const (name : String)
  /-- `%label`, standing for `rsp.r` of the earlier command with that label. -/
  | label (name : String)
  deriving DecidableEq, Repr

/-- A mnemonic of R60, or `OPhh` for a raw `op` value that is not in the table. -/
inductive AsmOp where
  | mnemonic (name : String)
  | raw (op : BitVec 8)
  deriving DecidableEq, Repr

/-- One line, `MNEMONIC operand [, operand [, operand]]`; its label is the host's to keep. -/
structure AsmLine where
  op : AsmOp
  operands : List AsmOperand
  deriving DecidableEq, Repr

/-- The `op` value of a line and the most operands it may write: for a mnemonic as many as its format reads, for `OPhh`
all three (log entry 22). `OPhh` is used only for a value that is in no row (R63). -/
def AsmOp.value : AsmOp → Option (BitVec 8 × Nat)
  | .mnemonic name => (opTable.find? (fun row => row.mnemonic == name)).map (fun row => (row.op, row.format.arity))
  | .raw op => if opTable.any (fun row => row.op == op) then none else some (op, 3)

/-- The word an operand stands for. `labels` has one pair, the label and the response, for each labelled command before
the line, in any order. A label whose response is an `ILLEGAL_OP` has no meaning (R63, U12).

DESIGN CHOICE (log entry 23, safe): a decimal literal outside `-2^31 ≤ v < 2^31` stands for no word; R63 says only "its
32-bit two's complement pattern", and it has none.

DESIGN CHOICE (log entry 26, safe): a label that two earlier commands carry, or none, stands for no word; R63 says only
"the earlier command with that label", as if there were exactly one. -/
def AsmOperand.value (labels : List (String × Response)) : AsmOperand → Option Word
  | .hex v => some v
  | .dec v => if -2 ^ 31 ≤ v ∧ v < 2 ^ 31 then some (BitVec.ofInt 32 v) else none
  | .const name => namedConstants.lookup name
  | .label name =>
    match labels.filter (fun p => p.1 == name) with
    | [(_, ⟨.ok, r⟩)] => some r
    | _ => none

/-- The command word of a line: operands in the order `a`, `b`, `c`, fields not written zero (R63). DESIGN CHOICE (log
entry 22, safe): R63 does not say what a line is whose operand count is not its format's. Here fewer operands, none
included, leave zeros, and a mnemonic with an operand its format does not read has no command word, since R62 has the
assembler write zero there; `OPhh` takes 0 to 3 operands, as the vectors of 95_test_vectors.md do. -/
def AsmLine.assemble (labels : List (String × Response)) (l : AsmLine) : Option CommandWord :=
  match l.op.value, l.operands.mapM (AsmOperand.value labels) with
  | some (op, most), some vs =>
    if vs.length ≤ most then some (commandWord op (vs.getD 0 0) (vs.getD 1 0) (vs.getD 2 0)) else none
  | _, _ => none

end Sys2Proof.Machine
end

