-- ==== Sys2Proof/Safety.lean ====
section
/-! DEFINITION. The terms in which claims are stated: the contracts of the configuration, what a response to a command
is, the invariant of the block's state, and the record of what crosses the two ports in a run. -/

namespace Sys2Proof.Machine

/-! ## The contracts of the configuration -/

/-- The operands `exp_core` is called with: finite, nonzero, strictly inside the two thresholds (R175). -/
def Cfg.expDomain (c : Cfg) (a : Word) : Prop :=
  isFinite a = true ∧ isZero a = false ∧ (if sgn a then fabs a < c.expUdfThr else a < c.expOvfThr)

/-- The operands `log_core` is called with: positive, finite, nonzero, not 1 (R183). -/
def logDomain (a : Word) : Prop := isFinite a = true ∧ isZero a = false ∧ sgn a = false ∧ a ≠ Pat.one

/-- The operands `pow_core` is called with (R208). -/
def powDomain (x y : Word) : Prop := logDomain x ∧ isFinite y = true ∧ isZero y = false

/-- What the spec requires of a configuration: R7, R173, R175, R183, R208, R235, R239, R243, R250. -/
structure Cfg.Legal (c : Cfg) : Prop where
  depth : 1 ≤ c.depth
  ovf : Pat.one < c.expOvfThr ∧ c.expOvfThr ≤ 0x42B17218#32
  udf : Pat.one < c.expUdfThr ∧ c.expUdfThr < Pat.pinf
  expCore : ∀ a, Cfg.expDomain c a → isNan (c.expCore a) = false ∧ sgn (c.expCore a) = false
  logFinite : ∀ a, logDomain a → isFinite (c.logCore a) = true
  logNegative : ∀ a, logDomain a → a < Pat.half → sgn (c.logCore a) = true ∧ isZero (c.logCore a) = false
  logPositive : ∀ a, logDomain a → Pat.two ≤ a → sgn (c.logCore a) = false ∧ isZero (c.logCore a) = false
  logExpOne : near (fpLog c (fpExp c Pat.one)) 1 = true
  logEight : near (fpDiv (fpLog c Pat.eight) (fpLog c Pat.two)) 3 = true
  powCore : ∀ x y, powDomain x y → isNan (c.powCore x y) = false ∧ sgn (c.powCore x y) = false
  powTwoThree : c.powCore Pat.two Pat.three = Pat.eight
  atanCore : ∀ a, isFinite a = true → isZero a = false →
    isNan (c.atanCore a) = false ∧ sgn (c.atanCore a) = sgn a ∧ fabs (c.atanCore a) ≤ Pat.halfPi
  asinCore : ∀ a, isZero a = false → fabs a < Pat.one →
    isNan (c.asinCore a) = false ∧ sgn (c.asinCore a) = sgn a ∧ fabs (c.asinCore a) ≤ Pat.halfPi
  acosCore : ∀ a, fabs a < Pat.one →
    isNan (c.acosCore a) = false ∧ sgn (c.acosCore a) = false ∧ c.acosCore a ≤ Pat.pi
  atan2Core : ∀ y x, isFinite y = true → isZero y = false → isFinite x = true → isZero x = false →
    isNan (c.atan2Core y x) = false ∧ sgn (c.atan2Core y x) = sgn y ∧ fabs (c.atan2Core y x) ≤ Pat.pi

/-! ## Values -/

/-- The unit in the last place of a finite pattern: the weight of its mantissa bit 0, `2^(max(E, 1) - 150)` (R10). -/
def ulp (r : Word) : Rat := 2 ^ max (expo r) 1 / 2 ^ 150

/-! ## Responses -/

/-- `p` is a response the block may give to the command word `w` (R60, R61): for an operation the one response it
makes, whatever the state; for an `op` that names none, any response with `st = ILLEGAL_OP` (R290, U1). -/
def Answers (w : CommandWord) (p : Response) : Prop :=
  match decode w with
  | .ok i => ∀ s : State, exec i s = .next { s with rsp := some p }
  | .error _ => p.st = .illegalOp

/-- From every state the operation `i` completes: its response is `st = OK`, `r = v`, and every other part of the state
is as before (R13, R14). This is completion, result and frame in one. -/
def Gives (i : Instr) (v : Word) : Prop := ∀ s : State, exec i s = .next { s with rsp := some ⟨.ok, v⟩ }

/-- The operations the canonical-NaN rule applies to; the others move bits (R12). -/
def canonicalNanOp : Instr → Bool
  | .raw _ | .dsign _ | .drexp _ | .drman _ | .dexp _ | .dman _ | .normman _ | .normexp _ | .fromparts _ _ _
  | .neg _ => false
  | .scaleb _ _ | .add _ _ | .sub _ _ | .mul _ _ | .div _ _ | .floor _ | .ceil _ | .round _ | .trunc _ | .sqrt _
  | .exp _ | .log _ | .log2 _ | .log10 _ | .logb _ _ | .pow _ _ | .sin _ | .cos _ | .tan _ | .asin _ | .acos _
  | .atan _ | .atan2 _ _ => true

/-- A response with `st = OK`. R290 offers "no response has `st = ILLEGAL_OP`" as the notion of a fault-free run. -/
def Response.faultFree (p : Response) : Prop := p.st = .ok

/-! ## The invariant of the state -/

/-- The queue is no longer than `CFG.DEPTH`, and a response on the port is a response to the oldest command in the
queue, whose latency is over (R24). -/
def State.Inv (s : State) : Prop :=
  s.inflight.length ≤ queueDepth ∧
  ∀ p, s.rsp = some p → ∃ f q, s.inflight = f :: q ∧ f.wait = 0 ∧ Answers f.word p

/-! ## Runs -/

/-- The command words accepted in the next `n` cycles, in order. -/
def acceptedIn : Nat → State → List CommandWord
  | 0, _ => []
  | n + 1, s =>
    match step s with
    | .next t => s.accepted.toList ++ acceptedIn n t
    | _ => []

/-- The responses delivered in the next `n` cycles, in order. -/
def deliveredIn : Nat → State → List Response
  | 0, _ => []
  | n + 1, s =>
    match step s with
    | .next t => s.delivered.toList ++ deliveredIn n t
    | _ => []

/-- The host does not assert `rst` in the next `n` cycles. -/
def NoResetIn (n : Nat) (s : State) : Prop := ∀ p ∈ s.inputs.take n, p.rst = false

/-- The host takes no response in the next `n` cycles and does not assert `rst`. -/
def HostWaits (n : Nat) (s : State) : Prop := ∀ p ∈ s.inputs.take n, p.rst = false ∧ p.rspReady = false

/-- A run in which every delivered response has `st = OK` (R290). -/
def FaultFree (n : Nat) (s : State) : Prop := ∀ p ∈ deliveredIn n s, p.faultFree

end Sys2Proof.Machine
end

