-- ==== Sys2Proof/Certificates/Slice0/Obligations.lean ====
section
/-! DEFINITION. The statements for the provers, in the order of OBLIGATIONS.json. They rest on the numbered rules of spec/;
where one rests on a choice of the model, its docstring names the log entry. `Gives i v` says that `i` completes from
every state, with the response `v`, and changes nothing else: completion, result and frame at once. -/

open Sys2Proof Sys2Proof.Machine

/-! ## The encoding -/

/-- Command words written out from the layout of R56 and the numbers of R60 decode to the operations they stand for. -/
def Obligations.SampleCommandWordsDecode : Prop :=
  decode 0x00_7FC12345_00000000_00000000#104 = .ok (.raw 0x7FC12345) ∧
  decode 0x10_00000001_00000080_00490FDB#104 = .ok (.fromparts 1 0x80 0x490FDB) ∧
  decode 0x11_3F800000_00000003_00000000#104 = .ok (.scaleb 0x3F800000 3) ∧
  decode 0x20_80000005_00000000_00000000#104 = .ok (.normman 0x80000005) ∧
  decode 0x30_3F800000_40000000_00000000#104 = .ok (.add 0x3F800000 0x40000000) ∧
  decode 0x33_40C00000_40000000_00000000#104 = .ok (.div 0x40C00000 0x40000000) ∧
  decode 0x42_40200000_00000000_00000000#104 = .ok (.round 0x40200000) ∧
  decode 0x50_40800000_00000000_00000000#104 = .ok (.sqrt 0x40800000) ∧
  decode 0x6B_41100000_40400000_00000000#104 = .ok (.logb 0x41100000 0x40400000) ∧
  decode 0x70_40000000_40400000_00000000#104 = .ok (.pow 0x40000000 0x40400000) ∧
  decode 0x82_3F490FDB_00000000_00000000#104 = .ok (.tan 0x3F490FDB) ∧
  decode 0x93_3F800000_BF800000_00000000#104 = .ok (.atan2 0x3F800000 0xBF800000) ∧
  decode 0x07_00000001_00000002_00000003#104 = .error (.illegalOp 0x07)

/-- Decoding the command word of any operation gives the operation back, with every operand. -/
def Obligations.DecodeInvertsEncode : Prop := ∀ i : Instr, decode (encode i) = .ok i

/-- R62: a field that an operation's format does not read changes no response, and the assembler writes zero in it. -/
def Obligations.UnreadFieldsAreIgnored : Prop :=
  ∀ row ∈ opTable, ∀ a b c b' c' : Word, ∀ p : Response,
    match row.format with
    | .u =>
      (Answers (commandWord row.op a b c) p ↔ Answers (commandWord row.op a b' c') p) ∧
      (⟨.mnemonic row.mnemonic, [.hex a]⟩ : AsmLine).assemble [] = some (commandWord row.op a 0 0)
    | .b =>
      (Answers (commandWord row.op a b c) p ↔ Answers (commandWord row.op a b c') p) ∧
      (⟨.mnemonic row.mnemonic, [.hex a, .hex b]⟩ : AsmLine).assemble [] = some (commandWord row.op a b 0)
    | .t => (⟨.mnemonic row.mnemonic, [.hex a, .hex b, .hex c]⟩ : AsmLine).assemble [] = some (commandWord row.op a b c)

/-- R57, R60, R61: a command word is an operation exactly when it matches a row of the table under the mask `0xFF << 96`; it
is then that row's own operation, with the row's mnemonic and number and the operands the row's format reads from the
word; every operation has a row; no two rows share a number or a mnemonic; there are 33 rows and 223 numbers in no row. -/
def Obligations.OpcodeTableSelectsTheOperation : Prop :=
  (∀ w : CommandWord, (∃ i, decode w = .ok i) ↔ ∃ row ∈ opTable, w &&& opMask = row.matchBits) ∧
  (∀ (w : CommandWord) (i : Instr) (row : OpRow), decode w = .ok i → row ∈ opTable → w &&& opMask = row.matchBits →
    i.mnemonic = row.mnemonic ∧ i.opcode = row.op ∧ w.op = row.op ∧ i.operands = row.format.fields w.a w.b w.c) ∧
  (∀ i : Instr, ∃ row ∈ opTable, row.mnemonic = i.mnemonic ∧ row.op = i.opcode) ∧
  opTable.Pairwise (fun r q => r.op ≠ q.op ∧ r.mnemonic ≠ q.mnemonic) ∧
  opTable.length = 33 ∧
  ((List.range 256).filter (fun n => !opTable.any (fun row => row.op == BitVec.ofNat 8 n))).length = 223

/-- R61, R290: an `op` in no row is rejected by the decoder, its command is accepted like any other, and when its turn comes
the step makes the response `ILLEGAL_OP` with some `r`, of which nothing is said, and changes nothing else. That the
step does so on the state after the clock edge, and puts the response on the port at its end, is the model's choice and
its inference (log entries 1, 2). -/
def Obligations.IllegalOpcodeAnswersIllegalOp : Prop :=
  ∀ w : CommandWord, (∀ row ∈ opTable, row.op ≠ w.op) →
    decode w = .error (.illegalOp w.op) ∧
    (∀ s : State, s.input.rst = false → s.input.presented = some w → s.cmdReady = true → s.accepted = some w) ∧
    (∀ s : State, s.input.rst = false → s.breaksHandshake = false → s.clockEdge.due = some w →
      ∃ r, step s = .next { s.clockEdge with rsp := some ⟨.illegalOp, r⟩ })

/-! ## The step, the ports and the queue -/

/-- A step runs the decoded oldest command on the state after the clock edge; `withFetchWord` places a command so that the
next step runs it; and a step with no command due only moves the ports, the queue and one latency. How a cycle is divided
and what `withFetchWord` sets are the model's choices (log entries 1, 2, 3, 12). -/
def Obligations.StepRunsTheOldestCommand : Prop :=
  (∀ (s : State) (w : CommandWord) (i : Instr), s.input.rst = false → s.breaksHandshake = false →
    s.clockEdge.due = some w → decode w = .ok i → step s = exec i s.clockEdge) ∧
  (∀ (s : State) (n w : Nat) (i : Instr), decodeTableWord n w = some i →
    step (s.withFetchWord n w) = exec i (s.withFetchWord n w).clockEdge) ∧
  (∀ s : State, s.input.rst = false → s.breaksHandshake = false → s.clockEdge.due = none →
    ∃ t, step s = .next t ∧ t.rsp = s.clockEdge.rsp ∧ t.held = s.clockEdge.held ∧ t.inputs = s.inputs.tail ∧
      t.cycle = s.cycle + 1 ∧
      (s.clockEdge.rsp ≠ none → t.inflight = s.nextQueue) ∧
      (s.clockEdge.rsp = none → ∀ f q, s.nextQueue = f :: q → 0 < f.wait ∧ t.inflight = ⟨f.word, f.wait - 1⟩ :: q))

/-- R24: in a cycle without reset the queue loses its head exactly when a response is delivered, gains at its end exactly
the command accepted, and a command is accepted only while there is room (one step is one cycle: log entry 1). -/
def Obligations.QueueIsFirstInFirstOut : Prop :=
  ∀ s : State, s.input.rst = false → s.breaksHandshake = false →
    ∃ t, step s = .next t ∧
      t.inflight.map Flight.word =
        (if s.delivered.isSome then s.inflight.tail else s.inflight).map Flight.word ++ s.accepted.toList ∧
      (s.accepted.isSome = true → s.inflight.length < queueDepth)

/-- R23: when a command is accepted, when a response is delivered, and that a response on the port stays there, unchanged,
for as long as the host neither takes it nor resets the block. -/
def Obligations.PortsFollowTheHandshake : Prop :=
  (∀ (s : State) (w : CommandWord), s.accepted = some w ↔
    s.input.rst = false ∧ s.input.cmdValid = true ∧ s.input.cmdWord = w ∧ s.cmdReady = true) ∧
  (∀ (s : State) (p : Response), s.delivered = some p ↔
    s.input.rst = false ∧ s.rsp = some p ∧ s.input.rspReady = true) ∧
  (∀ (n : Nat) (s t : State) (p : Response), HostWaits n s → s.rsp = some p →
    Host.Core.run Sys2Proof.core n s = .next t → t.rsp = some p)

/-- The block never faults, and the model refuses a step in one case only: without reset, a command presented and not
accepted in the cycle before is no longer presented unchanged (R23, U13; log entry 7). -/
def Obligations.StepStopsOnlyOnABrokenHandshake : Prop :=
  ∀ s : State,
    ((∃ t, step s = .next t) ∨ step s = .refused .handshakeBroken) ∧
    (step s = .refused .handshakeBroken ↔
      s.input.rst = false ∧ ∃ w, s.held = some w ∧ s.input.presented ≠ some w)

/-- R310, R311: in a cycle with `rst = 1` nothing is accepted and nothing delivered, and at its end the queue is empty and no
response is presented, whatever the state was. That the response word is then absent is the model's choice, no rule: R29
leaves it unspecified (log entry 6). -/
def Obligations.ResetDiscardsEverything : Prop :=
  ∀ s : State, s.input.rst = true →
    s.accepted = none ∧ s.delivered = none ∧
    ∃ t, step s = .next t ∧ t.inflight = [] ∧ t.rspValid = false ∧ t.rspWord = none

/-- R29: after reset the queue is empty and `rsp_valid` is 0; and the reset state meets the invariant. -/
def Obligations.ResetStateMeetsTheInvariant : Prop :=
  State.reset.inflight = [] ∧ State.reset.rspValid = false ∧ State.reset.Inv

/-- From every state that meets the invariant, reached or not, a step that has a next state keeps it: the queue never
outgrows `CFG.DEPTH`, and what is on the response port answers the oldest command (R24; the registered response is the model's: log entry 2). -/
def Obligations.InvariantKeptByEveryStep : Prop := ∀ s t : State, s.Inv → step s = .next t → t.Inv

/-- R24, R45: without reset, the responses delivered answer the commands in the order of acceptance, one each, none lost and
none repeated; the commands not answered are the last ones, and no more than the queue holds. -/
def Obligations.ResponsesComeInCommandOrder : Prop :=
  ∀ (n : Nat) (s : State), s.Inv → NoResetIn n s →
    ∃ done rest : List CommandWord,
      s.inflight.map Flight.word ++ acceptedIn n s = done ++ rest ∧
      List.Forall₂ Answers done (deliveredIn n s) ∧ rest.length ≤ queueDepth

/-- R14, R319: every operation completes from every state with one response, and the response to a legal command word is
a function of the word alone. -/
def Obligations.EveryCommandHasItsOneResponse : Prop :=
  (∀ i : Instr, ∃ v, Gives i v) ∧
  (∀ (w : CommandWord) (i : Instr), decode w = .ok i → ∃ v, ∀ p, Answers w p ↔ p = ⟨.ok, v⟩)

/-- R290, R292: a run in which every command is legal is fault-free: no delivered response has `st = ILLEGAL_OP`. -/
def Obligations.LegalCommandsMakeFaultFreeRuns : Prop :=
  ∀ (n : Nat) (s : State), s.Inv → (∀ f ∈ s.inflight, commandLegal f.word = true) →
    (∀ w ∈ acceptedIn n s, commandLegal w = true) → FaultFree n s

/-- R58: the layout of the response word and the two status codes. -/
def Obligations.ResponseWordLayout : Prop :=
  ∀ p : Response,
    p.word.extractLsb' 0 32 = p.r ∧
    (p.st = .ok → p.word.extractLsb' 32 2 = 0#2) ∧ (p.st = .illegalOp → p.word.extractLsb' 32 2 = 1#2) ∧
    p.word.extractLsb' 32 2 ≠ 2#2 ∧ p.word.extractLsb' 32 2 ≠ 3#2

/-- R318 item 2: the oldest command's response is presented after a finite number of cycles, the ones its latency says, and
it answers that command. The latency itself is free, and how cycles are counted is the model's choice (log entries 1 to 3). -/
def Obligations.ResponseIsPresentedInFiniteTime : Prop :=
  ∀ (k : Nat) (w : CommandWord) (q : List Flight) (s t : State),
    s.inflight = ⟨w, k⟩ :: q → s.rsp = none → NoResetIn (k + 1) s →
    Host.Core.run Sys2Proof.core (k + 1) s = .next t → t.rspValid = true ∧ ∃ p, t.rsp = some p ∧ Answers w p

/-- R318 item 1: while the queue has room, `cmd_ready` becomes 1 within a finite number of cycles, and the number does not
depend on what the host does (log entry 4). -/
def Obligations.CommandPortOpensInFiniteTime : Prop :=
  ∀ s : State, s.inflight.length < queueDepth →
    ∃ n : Nat, ∀ (ins : List PortInput) (t : State),
      Host.Core.run Sys2Proof.core n { s with inputs := ins } = .next t → t.cmdReady = true

/-- R63: the lines the rule writes out, a label, a decimal literal, a named constant, and a label whose response is an
`ILLEGAL_OP`, which has no meaning. That such a line has no command word is the model's reading (log entry 18). -/
def Obligations.AssemblerWritesTheCommandWord : Prop :=
  (⟨.mnemonic "ADD", [.hex 0x3F800000, .hex 0x40000000]⟩ : AsmLine).assemble [] =
    some 0x30_3F800000_40000000_00000000#104 ∧
  (⟨.raw 0x07, [.hex 1, .hex 2, .hex 3]⟩ : AsmLine).assemble [] = some 0x07_00000001_00000002_00000003#104 ∧
  (⟨.mnemonic "SCALEB", [.const "ONE", .dec (-3)]⟩ : AsmLine).assemble [] =
    some 0x11_3F800000_FFFFFFFD_00000000#104 ∧
  (⟨.raw 0x30, []⟩ : AsmLine).assemble [] = none ∧
  (∀ r, (⟨.mnemonic "SIN", [.label "x"]⟩ : AsmLine).assemble [("x", ⟨.ok, r⟩)] = some (commandWord 0x80 r 0 0)) ∧
  (∀ r, (⟨.mnemonic "SIN", [.label "x"]⟩ : AsmLine).assemble [("x", ⟨.illegalOp, r⟩)] = none)

/-- R64: the operations that are compositions of others give what the expansion gives. -/
def Obligations.ExpansionsGiveTheSameResult : Prop :=
  ∀ a b : Word,
    (∃ n v, Gives (.neg b) n ∧ Gives (.add a n) v ∧ Gives (.sub a b) v) ∧
    (∃ s v, Gives (.add a Pat.halfPi) s ∧ Gives (.sin s) v ∧ Gives (.cos a) v) ∧
    (∃ s c v, Gives (.sin a) s ∧ Gives (.cos a) c ∧ Gives (.div s c) v ∧ Gives (.tan a) v) ∧
    (∃ x y v, Gives (.log a) x ∧ Gives (.log b) y ∧ Gives (.div x y) v ∧ Gives (.logb a b) v) ∧
    (∃ v, Gives (.logb a Pat.two) v ∧ Gives (.log2 a) v) ∧
    (∃ v, Gives (.logb a Pat.ten) v ∧ Gives (.log10 a) v)

/-! ## Decomposer, reassembler, normalizer -/

/-- R81 to R84: the bits, the sign bit, the exponent field and the mantissa field, as arithmetic on the word's number. -/
def Obligations.FieldOperations : Prop :=
  ∀ a : Word,
    Gives (.raw a) a ∧
    Gives (.dsign a) (BitVec.ofNat 32 (a.toNat / 2 ^ 31)) ∧
    Gives (.drexp a) (BitVec.ofNat 32 (a.toNat / 2 ^ 23 % 2 ^ 8)) ∧
    Gives (.drman a) (BitVec.ofNat 32 (a.toNat % 2 ^ 23))

/-- R85, R86: the signed exponent and the signed mantissa, as integers. -/
def Obligations.SignedFieldOperations : Prop :=
  ∀ a : Word,
    (∃ v, Gives (.dexp a) v ∧ v.toInt = (a.toNat / 2 ^ 23 % 2 ^ 8 : Nat) - 127 ∧ -127 ≤ v.toInt ∧ v.toInt ≤ 128) ∧
    (∃ v, Gives (.dman a) v ∧
      v.toInt = (if sgn a then -1 else 1) * ((if expo a ≠ 0 then mant a + 2 ^ 23 else mant a : Nat) : Int) ∧
      -(2 ^ 24 - 1) ≤ v.toInt ∧ v.toInt ≤ 2 ^ 24 - 1)

/-- R87: each field of the pattern is its operand masked to the field's width, and the three field operations followed by
FROMPARTS are the identity. -/
def Obligations.FrompartsAssembles : Prop :=
  (∀ a b c : Word, ∃ v, Gives (.fromparts a b c) v ∧
    v.getLsbD 31 = a.getLsbD 0 ∧ v.extractLsb' 23 8 = b.extractLsb' 0 8 ∧ v.extractLsb' 0 23 = c.extractLsb' 0 23) ∧
  (∀ r : Word, ∃ s e m, Gives (.dsign r) s ∧ Gives (.drexp r) e ∧ Gives (.drman r) m ∧ Gives (.fromparts s e m) r)

/-- R91, R92: the normalised significand has its leading one at bit 23, and with its exponent it is the exact magnitude; the
two cases where there is none. -/
def Obligations.NormalizedSignificandAndExponent : Prop :=
  ∀ a : Word,
    (isZero a = true → Gives (.normman a) 0 ∧ Gives (.normexp a) 0) ∧
    (expo a = 255 → Gives (.normman a) (BitVec.ofNat 32 (mant a + 2 ^ 23)) ∧ Gives (.normexp a) 255) ∧
    (isFinite a = true → isZero a = false → ∃ m e, Gives (.normman a) m ∧ Gives (.normexp a) e ∧
      2 ^ 23 ≤ m.toNat ∧ m.toNat < 2 ^ 24 ∧ -22 ≤ e.toInt ∧ e.toInt ≤ 254 ∧
      |val a| = (m.toNat : Rat) * (2 : Rat) ^ (e.toInt - 150) ∧ (expo a ≠ 0 → e.toInt = expo a))

/-- R93: SCALEB is the exact product by `2^n` where that is a normal number, the signed infinity from `2^128` on, and below the
normal range the magnitude truncated to a multiple of `2^-149`. -/
def Obligations.ScalebIsExactScaling : Prop :=
  ∀ a b : Word,
    (isNan a = true → Gives (.scaleb a b) Pat.cnan) ∧
    (isInf a = true ∨ isZero a = true → Gives (.scaleb a b) a) ∧
    (isFinite a = true → isZero a = false → ∃ v, Gives (.scaleb a b) v ∧ sgn v = sgn a ∧
      (2 ^ 128 ≤ |val a| * (2 : Rat) ^ b.toInt → isInf v = true) ∧
      ((2 : Rat) ^ (-126 : Int) ≤ |val a| * (2 : Rat) ^ b.toInt → |val a| * (2 : Rat) ^ b.toInt < 2 ^ 128 →
        isFinite v = true ∧ val v = val a * (2 : Rat) ^ b.toInt) ∧
      (|val a| * (2 : Rat) ^ b.toInt < (2 : Rat) ^ (-126 : Int) →
        isFinite v = true ∧ |val v| = (⌊|val a| * (2 : Rat) ^ b.toInt * 2 ^ 149⌋ : Rat) / 2 ^ 149))

/-! ## Adder, subtractor, multiplier, divider -/

/-- R110 steps 1, 3 and 4: a NaN operand, infinite operands, and an operand more than 25 exponent steps smaller. -/
def Obligations.AddSpecialOperands : Prop :=
  ∀ a b : Word,
    (isNan a = true ∨ isNan b = true → Gives (.add a b) Pat.cnan) ∧
    (isInf a = true → isFinite b = true → Gives (.add a b) a ∧ Gives (.add b a) a) ∧
    (isInf a = true → Gives (.add a a) a ∧ Gives (.add a (fneg a)) Pat.cnan) ∧
    (isFinite a = true → isFinite b = true → expo b + 25 < expo a → Gives (.add a b) a ∧ Gives (.add b a) a)

/-- R113 item 1, R127 item 1: ADD and MUL are commutative, on every pair of patterns. -/
def Obligations.AddAndMulCommute : Prop :=
  ∀ a b : Word, (∃ v, Gives (.add a b) v ∧ Gives (.add b a) v) ∧ (∃ v, Gives (.mul a b) v ∧ Gives (.mul b a) v)

/-- R113 items 2 and 4, R115: an exact zero sum is `+0` whatever the signs, a finite pattern less itself is `+0`, and no sum or
difference is ever `-0`. -/
def Obligations.ZeroSumsArePlusZero : Prop :=
  (∀ a b : Word, isFinite a = true → isFinite b = true → val a + val b = 0 → Gives (.add a b) Pat.zero) ∧
  (∀ a : Word, isFinite a = true → Gives (.sub a a) Pat.zero) ∧
  (∀ a b : Word, ∃ v w, Gives (.add a b) v ∧ v ≠ 0x80000000 ∧ Gives (.sub a b) w ∧ w ≠ 0x80000000)

/-- R113 items 4, 5 and 7: a finite sum of finite operands is within one ulp of the exact sum, and is exact in the subnormal
range; the result is an infinity, of the sign of both operands, exactly when the sum is `2^128` or more, or, the sum
being negative and its aligned operand floored (R112 step 6), when its magnitude is above `2^128 - 2^98`. -/
def Obligations.AddWithinOneUlp : Prop :=
  ∀ a b : Word, isFinite a = true → isFinite b = true → ∃ v, Gives (.add a b) v ∧ isNan v = false ∧
    (isFinite v = true → |val v - (val a + val b)| ≤ ulp v) ∧ (expo v = 0 → val v = val a + val b) ∧
    (0 ≤ val a + val b → (isInf v = true ↔ 2 ^ 128 ≤ val a + val b)) ∧
    (val a + val b < 0 → (isInf v = true ↔ 2 ^ 128 - 2 ^ 98 < |val a + val b|)) ∧
    (isInf v = true → sgn v = sgn a ∧ sgn v = sgn b)

/-- R113 item 3: with effective exponents at most 6 apart, a nonzero exact sum that is a binary32 value is the result. -/
def Obligations.AddExactWhenRepresentable : Prop :=
  ∀ a b r : Word, isFinite a = true → isFinite b = true → isFinite r = true →
    max (expo a) 1 ≤ max (expo b) 1 + 6 → max (expo b) 1 ≤ max (expo a) 1 + 6 →
    val r = val a + val b → val r ≠ 0 → Gives (.add a b) r

/-- R114: NEG flips bit 31 and nothing else, and is its own inverse. -/
def Obligations.NegFlipsTheSign : Prop :=
  ∀ a : Word, ∃ v, Gives (.neg a) v ∧ v = a ^^^ 0x80000000#32 ∧ sgn v = !sgn a ∧ expo v = expo a ∧ mant v = mant a ∧
    Gives (.neg v) a ∧ (isFinite a = true → val v = -val a)

/-- R125: the special products. -/
def Obligations.MulSpecialOperands : Prop :=
  ∀ a b : Word,
    (isNan a = true ∨ isNan b = true → Gives (.mul a b) Pat.cnan) ∧
    (isInf a = true → isZero b = true → Gives (.mul a b) Pat.cnan ∧ Gives (.mul b a) Pat.cnan) ∧
    (isInf a = true → isNan b = false → isZero b = false →
      Gives (.mul a b) (pattern (sgn a ^^ sgn b) 0xFF 0) ∧ Gives (.mul b a) (pattern (sgn a ^^ sgn b) 0xFF 0)) ∧
    (isZero a = true → isFinite b = true →
      Gives (.mul a b) (pattern (sgn a ^^ sgn b) 0 0) ∧ Gives (.mul b a) (pattern (sgn a ^^ sgn b) 0 0))

/-- R127 items 2 to 6: a finite product, normal, subnormal or zero, is within one ulp of the exact one; a positive one is
truncated; a negative normal one has its magnitude rounded up to the unit of the first shift, which is the result's ulp
where the product of the significands (`NORMMAN`) is below `2^47` and else half of it, the half then dropped; an exact one
that is a normal number is the result. The product is a signed infinity exactly when its magnitude is `2^128` or more, or,
being negative and so rounded up (R126), above `2^128 - 2^104`. -/
def Obligations.MulWithinOneUlp : Prop :=
  ∀ a b m n : Word, isFinite a = true → isZero a = false → isFinite b = true → isZero b = false →
    Gives (.normman a) m → Gives (.normman b) n →
    ∃ v, Gives (.mul a b) v ∧ isNan v = false ∧ sgn v = (sgn a ^^ sgn b) ∧
      (isFinite v = true → |val v - val a * val b| < ulp v) ∧
      (isFinite v = true → 0 < val a * val b → val v ≤ val a * val b) ∧
      (isFinite v = true → expo v ≠ 0 → val a * val b < 0 →
        (m.toNat * n.toNat < 2 ^ 47 → |val v| = (⌈|val a * val b| / ulp v⌉ : Rat) * ulp v) ∧
        (2 ^ 47 ≤ m.toNat * n.toNat → |val v| = ((⌈2 * |val a * val b| / ulp v⌉ / 2 : Int) : Rat) * ulp v)) ∧
      (∀ r, isFinite r = true → expo r ≠ 0 → val r = val a * val b → v = r) ∧
      (0 < val a * val b → (isInf v = true ↔ 2 ^ 128 ≤ val a * val b)) ∧
      (val a * val b < 0 → (isInf v = true ↔ 2 ^ 128 - 2 ^ 104 < |val a * val b|))

/-- R127, R132: 1 is neutral for MUL and DIV on every pattern that is no NaN, and a finite nonzero pattern divided by itself
is 1. -/
def Obligations.OneIsNeutral : Prop :=
  ∀ a : Word,
    (isNan a = false → Gives (.mul a Pat.one) a ∧ Gives (.mul Pat.one a) a ∧ Gives (.div a Pat.one) a) ∧
    (isFinite a = true → isZero a = false → Gives (.div a a) Pat.one)

/-- R130: the special quotients. -/
def Obligations.DivSpecialOperands : Prop :=
  ∀ a b : Word,
    (isNan a = true ∨ isNan b = true → Gives (.div a b) Pat.cnan) ∧
    (isInf a = true → isInf b = true → Gives (.div a b) Pat.cnan) ∧
    (isInf a = true → isFinite b = true → Gives (.div a b) (pattern (sgn a ^^ sgn b) 0xFF 0)) ∧
    (isFinite a = true → isInf b = true → Gives (.div a b) (pattern (sgn a ^^ sgn b) 0 0)) ∧
    (isZero a = true → isZero b = true → Gives (.div a b) Pat.cnan) ∧
    (isFinite a = true → isZero a = false → isZero b = true →
      Gives (.div a b) (pattern (sgn a ^^ sgn b) 0xFF 0)) ∧
    (isZero a = true → isFinite b = true → isZero b = false → Gives (.div a b) (pattern (sgn a ^^ sgn b) 0 0))

/-- R132 item 1: the sign of a quotient of finite nonzero operands, and that a sign moves out of either operand. -/
def Obligations.DivSignRule : Prop :=
  ∀ a b : Word, isFinite a = true → isZero a = false → isFinite b = true → isZero b = false →
    ∃ v, Gives (.div a b) v ∧ sgn v = (sgn a ^^ sgn b) ∧
      Gives (.div (fneg a) b) (fneg v) ∧ Gives (.div a (fneg b)) (fneg v)

/-- R131, R132 items 2 to 4: a finite quotient is the exact one truncated, to 24 bits when the dividend's significand
(`NORMMAN`) is not the smaller and else to 23, bit 0 of a normal result being then 0; an exact normal quotient is the
result where 24 bits are kept, and where 23 are if it fits in them (its bit 0 is 0). The quotient is an infinity exactly
when its magnitude is `2^128` or more, of the sign that R132 item 1 gives. -/
def Obligations.DivTruncates : Prop :=
  ∀ a b m n : Word, isFinite a = true → isZero a = false → isFinite b = true → isZero b = false →
    Gives (.normman a) m → Gives (.normman b) n →
    ∃ v, Gives (.div a b) v ∧ isNan v = false ∧ sgn v = (sgn a ^^ sgn b) ∧
      (isFinite v = true → |val v| ≤ |val a / val b| ∧
        |val a / val b| < |val v| + (if n.toNat ≤ m.toNat then 1 else 2) * ulp v) ∧
      (m.toNat < n.toNat → isFinite v = true → expo v ≠ 0 → v.getLsbD 0 = false) ∧
      (∀ r, isFinite r = true → expo r ≠ 0 → val r = val a / val b → n.toNat ≤ m.toNat ∨ r.getLsbD 0 = false → v = r) ∧
      (isInf v = true ↔ 2 ^ 128 ≤ |val a / val b|)

/-! ## Rounding unit and square root -/

/-- R146: FLOOR is the largest integer not above the operand; zeros keep their sign. -/
def Obligations.FloorIsGreatestIntegerNotAbove : Prop :=
  ∀ a : Word,
    (isNan a = true → Gives (.floor a) Pat.cnan) ∧ (isInf a = true → Gives (.floor a) a) ∧
    (isFinite a = true → ∃ v, Gives (.floor a) v ∧ isFinite v = true ∧ val v = (⌊val a⌋ : Rat) ∧ sgn v = sgn a)

/-- R147: CEIL is the smallest integer not below the operand; between -1 and 0 it is `-0`. -/
def Obligations.CeilIsLeastIntegerNotBelow : Prop :=
  ∀ a : Word,
    (isNan a = true → Gives (.ceil a) Pat.cnan) ∧ (isInf a = true → Gives (.ceil a) a) ∧
    (isFinite a = true → ∃ v, Gives (.ceil a) v ∧ isFinite v = true ∧ val v = (⌈val a⌉ : Rat) ∧ sgn v = sgn a)

/-- R148: ROUND is the nearest integer, a tie going away from zero, on the magnitude with the sign kept; it commutes with
NEG. -/
def Obligations.RoundIsNearestTiesAway : Prop :=
  ∀ a : Word,
    (isNan a = true → Gives (.round a) Pat.cnan) ∧ (isInf a = true → Gives (.round a) a) ∧
    (isFinite a = true → ∃ v, Gives (.round a) v ∧ isFinite v = true ∧
      |val v| = (⌊|val a| + 1 / 2⌋ : Rat) ∧ sgn v = sgn a) ∧
    (isNan a = false → ∃ v, Gives (.round a) v ∧ Gives (.round (fneg a)) (fneg v))

/-- R149: TRUNC is the integral part, toward zero, with the sign kept: FLOOR for a clear sign bit, CEIL for a set one. -/
def Obligations.TruncIsIntegralPart : Prop :=
  ∀ a : Word,
    (isNan a = true → Gives (.trunc a) Pat.cnan) ∧ (isInf a = true → Gives (.trunc a) a) ∧
    (isFinite a = true → ∃ v, Gives (.trunc a) v ∧ isFinite v = true ∧ |val v| = (⌊|val a|⌋ : Rat) ∧ sgn v = sgn a) ∧
    (isNan a = false → ∃ v, Gives (.trunc a) v ∧ Gives (if sgn a then .ceil a else .floor a) v)

/-- R160: the operands SQRT answers without its datapath. -/
def Obligations.SqrtSpecialOperands : Prop :=
  ∀ a : Word,
    (isNan a = true → Gives (.sqrt a) Pat.cnan) ∧ (isZero a = true → Gives (.sqrt a) a) ∧
    (isZero a = false → sgn a = true → Gives (.sqrt a) Pat.cnan) ∧ Gives (.sqrt Pat.pinf) Pat.pinf

/-- R161: the square root of a positive finite value is the binary32 value nearest to the exact real root, nearer than any
other. -/
def Obligations.SqrtIsCorrectlyRounded : Prop :=
  ∀ a : Word, isFinite a = true → isZero a = false → sgn a = false →
    ∃ v, Gives (.sqrt a) v ∧ isFinite v = true ∧
      ∀ y, isFinite y = true → y ≠ v → |Real.sqrt (val a : ℝ) - (val v : ℝ)| < |Real.sqrt (val a : ℝ) - (val y : ℝ)|

/-! ## Exponential, logarithms, power -/

/-- R170, R171: the seven lines of EXP. -/
def Obligations.ExpDispatch : Prop :=
  ∀ a : Word,
    (isNan a = true → Gives (.exp a) Pat.cnan) ∧
    Gives (.exp Pat.pinf) Pat.pinf ∧ Gives (.exp Pat.ninf) Pat.zero ∧ (isZero a = true → Gives (.exp a) Pat.one) ∧
    (isNan a = false → sgn a = false → Config.cfg.expOvfThr ≤ a → Gives (.exp a) Pat.pinf) ∧
    (isNan a = false → sgn a = true → Config.cfg.expUdfThr ≤ fabs a → Gives (.exp a) Pat.zero) ∧
    (Cfg.expDomain Config.cfg a → Gives (.exp a) (Config.cfg.expCore a)) ∧
    (isNan a = false → ∃ v, Gives (.exp a) v ∧ isNan v = false ∧ sgn v = false)

/-- R7, R173, R175, R183, R208, R235, R239, R243, R250: the block's configuration meets every contract. That it does is the
work of `Cfg.legalise` (log entries 10, 11, 19). -/
def Obligations.ConfigurationMeetsItsContracts : Prop := Cfg.Legal Config.cfg

/-- No configuration the contracts allow is shut out: on a legal record `Cfg.legalise` changes nothing the block can see
(log entries 10, 11). -/
def Obligations.LegaliseKeepsLegalConfigurations : Prop :=
  ∀ c : Cfg, Cfg.Legal c →
    (Cfg.legalise c).depth = c.depth ∧ (Cfg.legalise c).expOvfThr = c.expOvfThr ∧
    (Cfg.legalise c).expUdfThr = c.expUdfThr ∧
    (∀ a, Cfg.expDomain c a → (Cfg.legalise c).expCore a = c.expCore a) ∧
    (∀ a, logDomain a → (Cfg.legalise c).logCore a = c.logCore a) ∧
    (∀ x y, powDomain x y → (Cfg.legalise c).powCore x y = c.powCore x y) ∧
    (∀ a, isFinite a = true → isZero a = false → (Cfg.legalise c).atanCore a = c.atanCore a) ∧
    (∀ a, isZero a = false → fabs a < Pat.one → (Cfg.legalise c).asinCore a = c.asinCore a) ∧
    (∀ a, fabs a < Pat.one → (Cfg.legalise c).acosCore a = c.acosCore a) ∧
    (∀ y x, isFinite y = true → isZero y = false → isFinite x = true → isZero x = false →
      (Cfg.legalise c).atan2Core y x = c.atan2Core y x)

/-- R180 with what R183 promises of the core: the six lines of LOG, and the sign of a logarithm. -/
def Obligations.LogDispatch : Prop :=
  ∀ a : Word,
    (isNan a = true → Gives (.log a) Pat.cnan) ∧ (isZero a = true → Gives (.log a) Pat.ninf) ∧
    (isZero a = false → sgn a = true → Gives (.log a) Pat.cnan) ∧
    Gives (.log Pat.pinf) Pat.pinf ∧ Gives (.log Pat.one) Pat.zero ∧
    (logDomain a → Gives (.log a) (Config.cfg.logCore a) ∧ isFinite (Config.cfg.logCore a) = true ∧
      (a < Pat.half → sgn (Config.cfg.logCore a) = true ∧ isZero (Config.cfg.logCore a) = false) ∧
      (Pat.two ≤ a → sgn (Config.cfg.logCore a) = false ∧ isZero (Config.cfg.logCore a) = false))

/-- R175 item 3, R183 items 4 and 5, R186, R187, R208 item 3: the values GD0 gives of the open operations, under every
configuration: `LOG(EXP(1))` is within 0.001 of 1, `LOG2(8)` within 0.001 of 3, `LOG2(2)`, `LOG10(10)` exactly 1 and
`POW(2, 3)` exactly 8. -/
def Obligations.WorkedValuesOfTheOpenOperations : Prop :=
  (∃ e l, Gives (.exp Pat.one) e ∧ Gives (.log e) l ∧ isFinite l = true ∧ |val l - 1| ≤ 1 / 1000) ∧
  (∃ l, Gives (.log2 Pat.eight) l ∧ isFinite l = true ∧ |val l - 3| ≤ 1 / 1000) ∧
  Gives (.log2 Pat.two) Pat.one ∧ Gives (.log10 Pat.ten) Pat.one ∧ Gives (.pow Pat.two Pat.three) Pat.eight

/-- The table of R185: the special pairs of LOGB. -/
def Obligations.LogbSpecialPairs : Prop :=
  ∀ a b : Word,
    (isNan a = true ∨ isNan b = true → Gives (.logb a b) Pat.cnan) ∧
    (isZero a = false → sgn a = true → Gives (.logb a b) Pat.cnan) ∧
    (isZero b = false → sgn b = true → Gives (.logb a b) Pat.cnan) ∧
    (isZero a = true → isZero b = true → Gives (.logb a b) Pat.cnan) ∧
    (isZero a = true → Gives (.logb a Pat.pinf) Pat.cnan ∧ Gives (.logb a Pat.one) Pat.ninf) ∧
    Gives (.logb Pat.pinf Pat.pinf) Pat.cnan ∧ Gives (.logb Pat.one Pat.one) Pat.cnan ∧
    (∀ l, logDomain a → Gives (.log a) l → isZero l = false →
      Gives (.logb a Pat.one) (if sgn l then Pat.ninf else Pat.pinf)) ∧
    (∀ l, logDomain b → Gives (.log b) l → isZero l = false → Gives (.logb Pat.one b) (pattern (sgn l) 0 0)) ∧
    (isZero a = true → logDomain b → Pat.two ≤ b → Gives (.logb a b) Pat.ninf) ∧
    (isZero a = true → logDomain b → b < Pat.half → Gives (.logb a b) Pat.pinf) ∧
    (logDomain b → Pat.two ≤ b → Gives (.logb Pat.pinf b) Pat.pinf) ∧
    (logDomain b → b < Pat.half → Gives (.logb Pat.pinf b) Pat.ninf) ∧
    (∀ l, logDomain a → Gives (.log a) l → isZero b = true → Gives (.logb a b) (pattern (!sgn l) 0 0)) ∧
    (∀ l, logDomain a → Gives (.log a) l → Gives (.logb a Pat.pinf) (pattern (sgn l) 0 0))

/-- The table of R197, which is R195 case by case: the special pairs of POW and, for the others, the core with the sign of an
odd power of a negative base. -/
def Obligations.PowSpecialPairs : Prop :=
  ∀ x y : Word,
    (isZero y = true → Gives (.pow x y) Pat.one) ∧ Gives (.pow Pat.one y) Pat.one ∧
    (isNan x = true → isZero y = false → Gives (.pow x y) Pat.cnan) ∧
    (x ≠ Pat.one → isNan y = true → Gives (.pow x y) Pat.cnan) ∧
    (isInf y = true → Gives (.pow Pat.minusOne y) Pat.one) ∧
    (isNan x = false → Pat.one < fabs x → Gives (.pow x Pat.pinf) Pat.pinf ∧ Gives (.pow x Pat.ninf) Pat.zero) ∧
    (fabs x < Pat.one → Gives (.pow x Pat.pinf) Pat.zero ∧ Gives (.pow x Pat.ninf) Pat.pinf) ∧
    (isFinite y = true → isZero y = false →
      (isInf x = true →
        Gives (.pow x y) (pattern (sgn x && yclass y == .odd) (if sgn y then 0 else 0xFF) 0)) ∧
      (isZero x = true →
        Gives (.pow x y) (pattern (sgn x && yclass y == .odd) (if sgn y then 0xFF else 0) 0)) ∧
      (isFinite x = true → isZero x = false → sgn x = true → yclass y = .nonint → Gives (.pow x y) Pat.cnan) ∧
      (yclass y = .odd → Gives (.pow Pat.minusOne y) Pat.minusOne) ∧
      (yclass y = .even → Gives (.pow Pat.minusOne y) Pat.one) ∧
      (logDomain (fabs x) → sgn x = true → yclass y = .odd →
        Gives (.pow x y) (0x80000000#32 ||| Config.cfg.powCore (fabs x) y)) ∧
      (logDomain (fabs x) → sgn x = true → yclass y = .even → Gives (.pow x y) (Config.cfg.powCore (fabs x) y)) ∧
      (logDomain x → Gives (.pow x y) (Config.cfg.powCore x y)))

/-- R196: the class of an exponent is the mathematical parity of its value. -/
def Obligations.YclassIsParityOfTheValue : Prop :=
  ∀ y : Word, isFinite y = true → isZero y = false →
    (yclass y = .odd ↔ ∃ n : Int, val y = ((2 * n + 1 : Int) : Rat)) ∧
    (yclass y = .even ↔ ∃ n : Int, val y = ((2 * n : Int) : Rat)) ∧
    (yclass y = .nonint ↔ ¬ ∃ n : Int, val y = (n : Rat))

/-! ## Trigonometric and inverse trigonometric units -/

/-- R215 with R218: SIN is the block's own operations in the order the rules give, on the reduced argument. -/
def Obligations.SinIsReducedBhaskara : Prop :=
  ∀ a : Word,
    (isNan a = true ∨ isInf a = true → Gives (.sin a) Pat.cnan) ∧
    (isFinite a = true → ∃ x y p u num w t den r v : Word,
      (if fpLt (fmodTwoPi a) Pat.zero then Gives (.add (fmodTwoPi a) Pat.twoPi) x else x = fmodTwoPi a) ∧
      (if fpGt x Pat.pi then Gives (.sub Pat.twoPi x) y else y = x) ∧
      Gives (.sub Pat.pi y) p ∧ Gives (.mul Pat.sixteen y) u ∧ Gives (.mul u p) num ∧
      Gives (.mul Pat.four y) w ∧ Gives (.mul w p) t ∧ Gives (.sub Pat.fivePiSq t) den ∧ Gives (.div num den) r ∧
      (if fpGt x Pat.pi then Gives (.neg r) v else v = r) ∧ Gives (.sin a) v)

/-- R217: the reducer is the exact remainder by the constant `TWO_PI` with a quotient truncated toward zero. -/
def Obligations.ReducerIsExactRemainder : Prop :=
  ∀ a : Word, isFinite a = true →
    isFinite (fmodTwoPi a) = true ∧ sgn (fmodTwoPi a) = sgn a ∧ |val (fmodTwoPi a)| < val Pat.twoPi ∧
    |val (fmodTwoPi a)| = |val a| - (⌊|val a| / val Pat.twoPi⌋ : Rat) * val Pat.twoPi

/-- R215, R218, R219: the sine and the cosine of a finite operand are finite: the division of R218 never meets a zero
divisor. -/
def Obligations.SineAndCosineOfFiniteAreFinite : Prop :=
  ∀ a : Word, isFinite a = true →
    (∃ v, Gives (.sin a) v ∧ isFinite v = true) ∧ (∃ v, Gives (.cos a) v ∧ isFinite v = true)

/-- R219, R221 remark 5: from `2^26` on the cosine is the sine, and the tangent is 1, or a NaN where they are zeros. -/
def Obligations.LargeOperandCosineIsSine : Prop :=
  ∀ a : Word, isFinite a = true → 153 ≤ expo a →
    ∃ v, Gives (.sin a) v ∧ Gives (.cos a) v ∧
      Gives (.tan a) (if isFinite v && !isZero v then Pat.one else Pat.cnan)

/-- R221: rows of the table of worked values, and the three reducer values. -/
def Obligations.WorkedTrigonometricValues : Prop :=
  Gives (.sin 0x3FC90FDB) 0x3F800000 ∧ Gives (.cos 0x3FC90FDB) 0x00000000 ∧ Gives (.tan 0x3FC90FDB) 0x7F800000 ∧
  Gives (.sin 0x40490FDB) 0x00000000 ∧ Gives (.cos 0x40490FDB) 0xBF800000 ∧ Gives (.tan 0x40490FDB) 0x80000000 ∧
  Gives (.sin 0x3F9DF3B6) 0x3F7174C0 ∧ Gives (.cos 0x3F9DF3B6) 0x3EA9D18D ∧ Gives (.tan 0x3F9DF3B6) 0x4035FF17 ∧
  Gives (.sin 0xC2C80000) 0x3F019E2B ∧ Gives (.cos 0xC2C80000) 0x3F5C7392 ∧ Gives (.tan 0xC2C80000) 0x3F1684E8 ∧
  Gives (.sin 0x80000001) 0x80000000 ∧ Gives (.sin 0x80000000) 0x80000000 ∧
  fmodTwoPi 0x42C80000 = 0x40B8122B ∧ fmodTwoPi 0x501502F9 = 0x407D5C64 ∧ fmodTwoPi 0x7F7FFFFF = 0x3FDDB0F8

/-- R233, R237, R241: ATAN, ASIN and ACOS on their special operands, the core on every other, and, by R235, R239 and R243, the
range of every result. -/
def Obligations.InverseTrigonometricResults : Prop :=
  ∀ a : Word,
    (isNan a = true → Gives (.atan a) Pat.cnan ∧ Gives (.asin a) Pat.cnan ∧ Gives (.acos a) Pat.cnan) ∧
    (isInf a = true → Gives (.atan a) (if sgn a then 0xBFC90FDB else 0x3FC90FDB)) ∧
    (isZero a = true → Gives (.atan a) a ∧ Gives (.asin a) a) ∧
    (Pat.one < fabs a → Gives (.asin a) Pat.cnan ∧ Gives (.acos a) Pat.cnan) ∧
    Gives (.asin Pat.one) 0x3FC90FDB ∧ Gives (.asin Pat.minusOne) 0xBFC90FDB ∧
    Gives (.acos Pat.one) 0x00000000 ∧ Gives (.acos Pat.minusOne) 0x40490FDB ∧
    (isFinite a = true → isZero a = false → Gives (.atan a) (Config.cfg.atanCore a)) ∧
    (isZero a = false → fabs a < Pat.one → Gives (.asin a) (Config.cfg.asinCore a)) ∧
    (fabs a < Pat.one → Gives (.acos a) (Config.cfg.acosCore a)) ∧
    (isNan a = false → ∃ v, Gives (.atan a) v ∧ isNan v = false ∧ sgn v = sgn a ∧ fabs v ≤ Pat.halfPi) ∧
    (fabs a ≤ Pat.one → ∃ v, Gives (.asin a) v ∧ isNan v = false ∧ sgn v = sgn a ∧ fabs v ≤ Pat.halfPi) ∧
    (fabs a ≤ Pat.one → ∃ v, Gives (.acos a) v ∧ isNan v = false ∧ sgn v = false ∧ v ≤ Pat.pi)

/-- The table of R247, which is R246 case by case, and the range of every result (R250). `y` is the operand `a`. -/
def Obligations.Atan2SpecialPairs : Prop :=
  ∀ y x : Word,
    (isNan y = true ∨ isNan x = true → Gives (.atan2 y x) Pat.cnan) ∧
    (isZero y = true → isNan x = false → sgn x = false → Gives (.atan2 y x) y) ∧
    (isZero y = true → isNan x = false → sgn x = true → Gives (.atan2 y x) (if sgn y then 0xC0490FDB else 0x40490FDB)) ∧
    (isNan y = false → isZero y = false → isZero x = true →
      Gives (.atan2 y x) (if sgn y then 0xBFC90FDB else 0x3FC90FDB)) ∧
    (isInf y = true → Gives (.atan2 y Pat.pinf) (if sgn y then 0xBF490FDB else 0x3F490FDB) ∧
      Gives (.atan2 y Pat.ninf) (if sgn y then 0xC016CBE4 else 0x4016CBE4)) ∧
    (isFinite y = true → isZero y = false →
      Gives (.atan2 y Pat.pinf) (if sgn y then 0x80000000 else 0x00000000) ∧
      Gives (.atan2 y Pat.ninf) (if sgn y then 0xC0490FDB else 0x40490FDB)) ∧
    (isInf y = true → isFinite x = true → isZero x = false →
      Gives (.atan2 y x) (if sgn y then 0xBFC90FDB else 0x3FC90FDB)) ∧
    (isFinite y = true → isZero y = false → isFinite x = true → isZero x = false →
      Gives (.atan2 y x) (Config.cfg.atan2Core y x)) ∧
    (isNan y = false → isNan x = false →
      ∃ v, Gives (.atan2 y x) v ∧ isNan v = false ∧ sgn v = sgn y ∧ fabs v ≤ Pat.pi)

/-! ## The whole block -/

/-- R12: every operation but the bit-transfer ones returns a NaN only as `0xFFC00000`; the bit-transfer ones pass any NaN
pattern. -/
def Obligations.ComputedNansAreCanonical : Prop :=
  (∀ (i : Instr) (v : Word), canonicalNanOp i = true → Gives i v → isNan v = true → v = 0xFFC00000) ∧
  (∀ n : Word, isNan n = true → Gives (.raw n) n ∧ Gives (.neg n) (n ^^^ 0x80000000#32) ∧
    ∃ s e m, Gives (.dsign n) s ∧ Gives (.drexp n) e ∧ Gives (.drman n) m ∧ Gives (.fromparts s e m) n)

/-- R216, R230: each trigonometric constant is the binary32 value nearest the real number it is named after (within half a
unit in its last place), and `5 pi^2` is not the product of the block's multiplier. -/
def Obligations.TrigonometricConstantsAreNearest : Prop :=
  |(val Pat.pi : ℝ) - Real.pi| < (ulp Pat.pi : ℝ) / 2 ∧
  |(val Pat.twoPi : ℝ) - 2 * Real.pi| < (ulp Pat.twoPi : ℝ) / 2 ∧
  |(val Pat.halfPi : ℝ) - Real.pi / 2| < (ulp Pat.halfPi : ℝ) / 2 ∧
  |(val Pat.quarterPi : ℝ) - Real.pi / 4| < (ulp Pat.quarterPi : ℝ) / 2 ∧
  |(val Pat.threeQuarterPi : ℝ) - 3 * Real.pi / 4| < (ulp Pat.threeQuarterPi : ℝ) / 2 ∧
  |(val Pat.fivePiSq : ℝ) - 5 * Real.pi ^ 2| < (ulp Pat.fivePiSq : ℝ) / 2 ∧
  val Pat.sixteen = 16 ∧ val Pat.four = 4 ∧ val Pat.twoPi = 2 * val Pat.pi ∧ val Pat.pi = 2 * val Pat.halfPi ∧
  val Pat.halfPi = 2 * val Pat.quarterPi ∧
  (∃ q v, Gives (.mul Pat.pi Pat.pi) q ∧ Gives (.mul 0x40A00000 q) v ∧ v ≠ Pat.fivePiSq)
end

