-- ==== Sys2Proof/Laws/Fields.lean ====
section
/-! SUPPORT. The fields of a pattern put together from its fields, and a pattern's fields put together again (R8, R88). -/

namespace Sys2Proof.Machine

theorem expo_lt (r : Word) : expo r < 256 := (r.extractLsb' 23 8).isLt

theorem mant_lt (r : Word) : mant r < 2 ^ 23 := (r.extractLsb' 0 23).isLt

theorem pattern_toNat (s : Bool) (e m : Nat) :
    (pattern s e m).toNat = (if s then 2 ^ 31 else 0) + (e % 256) * 2 ^ 23 + m % 2 ^ 23 := by
  unfold pattern
  rw [BitVec.toNat_append, BitVec.toNat_append, ← Nat.shiftLeft_add_eq_or_of_lt (by simp; omega),
    ← Nat.shiftLeft_add_eq_or_of_lt (by simp; omega)]
  simp only [Nat.shiftLeft_eq, BitVec.toNat_ofNat, BitVec.toNat_ofBool]
  cases s
  · simp
  · simp; omega

theorem expo_eq (r : Word) : expo r = r.toNat / 2 ^ 23 % 256 := by
  simp [expo, BitVec.extractLsb'_toNat, Nat.shiftRight_eq_div_pow]

theorem mant_eq (r : Word) : mant r = r.toNat % 2 ^ 23 := by simp [mant, BitVec.extractLsb'_toNat]

theorem sgn_eq (r : Word) : sgn r = decide (2 ^ 31 ≤ r.toNat) := by
  have h : sgn r = r.msb := rfl
  rw [h, BitVec.msb_eq_decide]

@[simp] theorem expo_pattern (s : Bool) (e m : Nat) : expo (pattern s e m) = e % 256 := by
  rw [expo_eq, pattern_toNat]; split <;> omega

@[simp] theorem mant_pattern (s : Bool) (e m : Nat) : mant (pattern s e m) = m % 2 ^ 23 := by
  rw [mant_eq, pattern_toNat]; split <;> omega

@[simp] theorem sgn_pattern (s : Bool) (e m : Nat) : sgn (pattern s e m) = s := by
  rw [sgn_eq, pattern_toNat]; cases s <;> simp <;> omega

/-- A word is its three fields. -/
theorem toNat_fields (r : Word) : r.toNat = (if sgn r then 2 ^ 31 else 0) + expo r * 2 ^ 23 + mant r := by
  have h := r.isLt
  have hm := mant_eq r
  have he := expo_eq r
  have hs := sgn_eq r
  by_cases hb : 2 ^ 31 ≤ r.toNat
  · have hs' : sgn r = true := by rw [hs]; simpa using hb
    rw [hs', hm, he]; simp; omega
  · have hs' : sgn r = false := by rw [hs]; simpa using hb
    rw [hs', hm, he]; simp; omega

@[simp] theorem pattern_fields (r : Word) : pattern (sgn r) (expo r) (mant r) = r := by
  apply BitVec.eq_of_toNat_eq
  rw [pattern_toNat, toNat_fields r, Nat.mod_eq_of_lt (expo_lt r), Nat.mod_eq_of_lt (mant_lt r)]

/-- Two words with the same three fields are one word. -/
theorem eq_of_fields {r q : Word} (hs : sgn r = sgn q) (he : expo r = expo q) (hm : mant r = mant q) : r = q := by
  rw [← pattern_fields r, ← pattern_fields q, hs, he, hm]

theorem fabs_toNat (r : Word) : (fabs r).toNat = expo r * 2 ^ 23 + mant r := by
  have hm := mant_lt r
  have he := expo_lt r
  have h : fabs r = BitVec.ofNat 32 (r.toNat % 2 ^ 31) := by
    apply BitVec.eq_of_toNat_eq
    have h1 : (0x7FFFFFFF#32).toNat = 2 ^ 31 - 1 := rfl
    rw [fabs, BitVec.toNat_and, h1, Nat.and_two_pow_sub_one_eq_mod]
    simp
    omega
  rw [h, BitVec.toNat_ofNat, toNat_fields r]
  split <;> omega

@[simp] theorem expo_fabs (r : Word) : expo (fabs r) = expo r := by
  have hm := mant_lt r
  have he := expo_lt r
  rw [expo_eq, fabs_toNat]; omega

@[simp] theorem mant_fabs (r : Word) : mant (fabs r) = mant r := by
  have hm := mant_lt r
  rw [mant_eq, fabs_toNat]; omega

@[simp] theorem sgn_fabs (r : Word) : sgn (fabs r) = false := by
  have hm := mant_lt r
  have he := expo_lt r
  rw [sgn_eq, fabs_toNat]; simp; omega

/-! ## Classes -/

theorem isNan_iff (r : Word) : isNan r = true ↔ expo r = 255 ∧ mant r ≠ 0 := by simp [isNan]

theorem isInf_iff (r : Word) : isInf r = true ↔ expo r = 255 ∧ mant r = 0 := by simp [isInf]

theorem isZero_iff (r : Word) : isZero r = true ↔ expo r = 0 ∧ mant r = 0 := by simp [isZero]

theorem isFinite_iff (r : Word) : isFinite r = true ↔ expo r ≠ 255 := by simp [isFinite]

@[simp] theorem isNan_fabs (r : Word) : isNan (fabs r) = isNan r := by simp [isNan]

@[simp] theorem isZero_fabs (r : Word) : isZero (fabs r) = isZero r := by simp [isZero]

@[simp] theorem isFinite_fabs (r : Word) : isFinite (fabs r) = isFinite r := by simp [isFinite]

end Sys2Proof.Machine
end

