-- ==== Sys2Proof/Laws/Cores.lean ====
section
/-! SUPPORT. What the two ways of holding a core's result to its contract give, and that they keep a result that meets it
(R175, R208, R235, R239, R243, R250). -/

namespace Sys2Proof.Machine

theorem positiveOrInf_spec (r : Word) : isNan (positiveOrInf r) = false ∧ sgn (positiveOrInf r) = false := by
  unfold positiveOrInf
  cases h : isNan r
  · simp [h]
  · simp only [if_true]; decide

theorem positiveOrInf_eq (r : Word) (hn : isNan r = false) (hs : sgn r = false) : positiveOrInf r = r := by
  rw [positiveOrInf, hn]
  exact eq_of_fields (by simp [hs]) (by simp) (by simp)

theorem signBit_toNat (r : Word) : (signBit r).toNat = if sgn r then 2 ^ 31 else 0 := by
  have h : signBit r = if sgn r then 0x80000000#32 else 0 := by
    apply BitVec.eq_of_getLsbD_eq
    intro i hi
    have h8 : (0x80000000#32).getLsbD i = decide (i = 31) := by
      rw [show (0x80000000#32) = BitVec.twoPow 32 31 from rfl, BitVec.getLsbD_twoPow]
      simp [eq_comm]
    unfold signBit
    rw [BitVec.getLsbD_and, h8]
    by_cases h31 : i = 31
    · subst h31
      have hs : sgn r = r.getLsbD 31 := rfl
      rw [hs]
      cases r.getLsbD 31 <;> simp
    · cases sgn r <;> simp [h31]
      rw [h8]; simp [h31]
  rw [h]; split <;> simp

/-- A sign bit put over a word without one. -/
theorem signBit_or_toNat (a r : Word) (hr : r.toNat < 2 ^ 31) :
    (signBit a ||| r).toNat = (if sgn a then 2 ^ 31 else 0) + r.toNat := by
  rw [BitVec.toNat_or, signBit_toNat]
  split
  · rw [show (2 : Nat) ^ 31 = 1 <<< 31 from rfl, ← Nat.shiftLeft_add_eq_or_of_lt hr]
  · simp

theorem sgn_signBit_or (a r : Word) (hr : r.toNat < 2 ^ 31) : sgn (signBit a ||| r) = sgn a := by
  rw [sgn_eq, signBit_or_toNat a r hr]
  cases sgn a
  · simp; omega
  · simp

theorem fabs_signBit_or (a r : Word) (hr : r.toNat < 2 ^ 31) : fabs (signBit a ||| r) = r := by
  apply BitVec.eq_of_toNat_eq
  rw [fabs_toNat, expo_eq, mant_eq, signBit_or_toNat a r hr]
  split <;> omega

/-- What `signedBelow` gives: the sign of the operand, a magnitude of at most the bound. -/
theorem signedBelow_spec (bound a r : Word) (hb : bound.toNat ≤ 0x7F800000) :
    isNan (signedBelow bound a r) = false ∧ sgn (signedBelow bound a r) = sgn a ∧
    fabs (signedBelow bound a r) ≤ bound := by
  have key : ∀ m : Word, m ≤ bound → isNan (signBit a ||| m) = false ∧ sgn (signBit a ||| m) = sgn a ∧
      fabs (signBit a ||| m) ≤ bound := by
    intro m hm
    have hm' : m.toNat ≤ bound.toNat := hm
    have h31 : m.toNat < 2 ^ 31 := by omega
    refine ⟨?_, sgn_signBit_or a m h31, by rw [fabs_signBit_or a m h31]; exact hm⟩
    rw [← isNan_fabs, fabs_signBit_or a m h31, Bool.eq_false_iff, ne_eq, isNan_iff, expo_eq, mant_eq]
    omega
  unfold signedBelow
  split
  · next h => exact key _ h
  · exact key _ (BitVec.le_refl _)

theorem signedBelow_eq (bound a r : Word) (hs : sgn r = sgn a) (hb : fabs r ≤ bound) : signedBelow bound a r = r := by
  have h31 : (fabs r).toNat < 2 ^ 31 := by
    have := mant_lt r; have := expo_lt r; rw [fabs_toNat]; omega
  unfold signedBelow
  rw [if_pos hb]
  have hf := fabs_signBit_or a (fabs r) h31
  refine eq_of_fields (by rw [sgn_signBit_or a _ h31, hs]) ?_ ?_
  · rw [← expo_fabs, hf, expo_fabs]
  · rw [← mant_fabs, hf, mant_fabs]

end Sys2Proof.Machine
end

