-- ==== Sys2Proof/Laws/State.lean ====
section
/-! SUPPORT. One lemma per field per update of the state, so that no proof unfolds a record update. -/

namespace Sys2Proof.Machine

/-! ## `respond` -/

@[simp] theorem State.respond_inflight (s : State) (v : Word) : (s.respond v).inflight = s.inflight := rfl
@[simp] theorem State.respond_rsp (s : State) (v : Word) : (s.respond v).rsp = some ⟨.ok, v⟩ := rfl
@[simp] theorem State.respond_held (s : State) (v : Word) : (s.respond v).held = s.held := rfl
@[simp] theorem State.respond_inputs (s : State) (v : Word) : (s.respond v).inputs = s.inputs := rfl
@[simp] theorem State.respond_cycle (s : State) (v : Word) : (s.respond v).cycle = s.cycle := rfl

/-! ## `takeIllegalOp` -/

@[simp] theorem State.takeIllegalOp_inflight (s : State) (w : CommandWord) :
    (s.takeIllegalOp w).inflight = s.inflight := rfl
@[simp] theorem State.takeIllegalOp_rsp (s : State) (w : CommandWord) :
    (s.takeIllegalOp w).rsp = some ⟨.illegalOp, Config.freeIllegalR s.cycle w⟩ := rfl
@[simp] theorem State.takeIllegalOp_held (s : State) (w : CommandWord) : (s.takeIllegalOp w).held = s.held := rfl
@[simp] theorem State.takeIllegalOp_inputs (s : State) (w : CommandWord) : (s.takeIllegalOp w).inputs = s.inputs := rfl
@[simp] theorem State.takeIllegalOp_cycle (s : State) (w : CommandWord) : (s.takeIllegalOp w).cycle = s.cycle := rfl

/-! ## `clockEdge` -/

@[simp] theorem State.clockEdge_inflight (s : State) : s.clockEdge.inflight = s.nextQueue := rfl
@[simp] theorem State.clockEdge_inputs (s : State) : s.clockEdge.inputs = s.inputs.tail := rfl
@[simp] theorem State.clockEdge_cycle (s : State) : s.clockEdge.cycle = s.cycle + 1 := rfl
theorem State.clockEdge_rsp (s : State) :
    s.clockEdge.rsp = match s.delivered with | some _ => none | none => s.rsp := rfl
theorem State.clockEdge_held (s : State) :
    s.clockEdge.held = match s.accepted with | some _ => none | none => s.input.presented := rfl

/-! ## `resetEdge` -/

@[simp] theorem State.resetEdge_inflight (s : State) : s.resetEdge.inflight = [] := rfl
@[simp] theorem State.resetEdge_rsp (s : State) : s.resetEdge.rsp = none := rfl
@[simp] theorem State.resetEdge_held (s : State) : s.resetEdge.held = none := rfl
@[simp] theorem State.resetEdge_inputs (s : State) : s.resetEdge.inputs = s.inputs.tail := rfl
@[simp] theorem State.resetEdge_cycle (s : State) : s.resetEdge.cycle = s.cycle + 1 := rfl

/-! ## `tick` -/

@[simp] theorem State.tick_rsp (s : State) : s.tick.rsp = s.rsp := by unfold State.tick; split <;> simp_all
@[simp] theorem State.tick_held (s : State) : s.tick.held = s.held := by unfold State.tick; split <;> rfl
@[simp] theorem State.tick_inputs (s : State) : s.tick.inputs = s.inputs := by unfold State.tick; split <;> rfl
@[simp] theorem State.tick_cycle (s : State) : s.tick.cycle = s.cycle := by unfold State.tick; split <;> rfl
@[simp] theorem State.tick_words (s : State) : s.tick.inflight.map Flight.word = s.inflight.map Flight.word := by
  unfold State.tick; split <;> simp_all
@[simp] theorem State.tick_length (s : State) : s.tick.inflight.length = s.inflight.length := by
  unfold State.tick; split <;> simp_all

/-! ## `reset` -/

@[simp] theorem State.reset_inflight : State.reset.inflight = [] := rfl
@[simp] theorem State.reset_rsp : State.reset.rsp = none := rfl
@[simp] theorem State.reset_held : State.reset.held = none := rfl
@[simp] theorem State.reset_inputs : State.reset.inputs = [] := rfl
@[simp] theorem State.reset_cycle : State.reset.cycle = 0 := rfl

/-! ## `withFetchWord` -/

@[simp] theorem State.withFetchWord_rsp (s : State) (n w : Nat) : (s.withFetchWord n w).rsp = none := rfl
@[simp] theorem State.withFetchWord_held (s : State) (n w : Nat) : (s.withFetchWord n w).held = s.held := rfl
@[simp] theorem State.withFetchWord_cycle (s : State) (n w : Nat) : (s.withFetchWord n w).cycle = s.cycle := rfl
@[simp] theorem State.withFetchWord_inflight (s : State) (n w : Nat) :
    (s.withFetchWord n w).inflight = ⟨BitVec.ofNat 104 (w % (1 <<< n)), 0⟩ :: s.inflight.tail := rfl
@[simp] theorem State.withFetchWord_input (s : State) (n w : Nat) :
    (s.withFetchWord n w).input = ⟨false, s.held.isSome, s.held.getD 0, false⟩ := rfl

end Sys2Proof.Machine
end

