-- ==== Sys2Proof/Laws/Exec.lean ====
section
/-! SUPPORT. What executing an operation can do: it answers, and it does nothing else (R13, R14). One lemma says it of every
operation, so that no proof about the transport unfolds a meaning. -/

namespace Sys2Proof.Machine

@[simp] theorem answer_eq (s : State) (v : Word) : answer s v = .next (s.respond v) := rfl

theorem respond_eq (s : State) (v : Word) : s.respond v = { s with rsp := some ⟨.ok, v⟩ } := rfl

/-- The response value of an operation. -/
def valueOf (i : Instr) : Word :=
  match exec i State.reset with
  | .next t => (t.rsp.map Response.r).getD 0
  | _ => 0

/-- Every operation answers its value and changes nothing else (R14). -/
theorem exec_eq (i : Instr) (s : State) : exec i s = .next (s.respond (valueOf i)) := by cases i <;> rfl

theorem gives_iff (i : Instr) (v : Word) : Gives i v ↔ v = valueOf i := by
  constructor
  · intro h
    have h0 := h State.reset
    rw [exec_eq] at h0
    injection h0 with h0
    have := congrArg State.rsp h0
    simpa using this.symm
  · rintro rfl s
    exact exec_eq i s

theorem answers_ok (w : CommandWord) (i : Instr) (h : decode w = .ok i) (p : Response) :
    Answers w p ↔ p = ⟨.ok, valueOf i⟩ := by
  unfold Answers
  rw [h]
  constructor
  · intro hp
    have h0 := hp State.reset
    rw [exec_eq] at h0
    injection h0 with h0
    have := congrArg State.rsp h0
    simpa using this.symm
  · rintro rfl s
    exact exec_eq i s

theorem answers_error (w : CommandWord) (e : Reject) (h : decode w = .error e) (p : Response) :
    Answers w p ↔ p.st = .illegalOp := by
  unfold Answers
  rw [h]

end Sys2Proof.Machine
end

