-- ==== Sys2Proof/Laws/Pack.lean ====
section
/-! SUPPORT. What `pack`, `normalizeMag` and `norm` give (40_decompose_reassemble.md R88 to R90), in units of `2^-149`. -/

namespace Sys2Proof.Machine

/-! ## The magnitude of a pattern put together from its fields -/

theorem absUnits_normal (s : Bool) (e m : Nat) (he : 1 ≤ e) (he' : e ≤ 254) (hm : 2 ^ 23 ≤ m) (hm' : m < 2 ^ 24) :
    absUnits (pattern s e m) = m * 2 ^ (e - 1) := by
  have h1 : e % 256 = e := by omega
  have h2 : max e 1 = e := by omega
  have h3 : m % 2 ^ 23 + 0x800000 = m := by omega
  unfold absUnits magnitude
  rw [expo_pattern, mant_pattern, h1, if_pos (by omega), h2, h3, Nat.shiftLeft_eq]

theorem absUnits_subnormal (s : Bool) (m : Nat) (hm : m < 2 ^ 23) : absUnits (pattern s 0 m) = m := by
  unfold absUnits magnitude
  rw [expo_pattern, mant_pattern]
  simp only [Nat.zero_mod, ne_eq, not_true_eq_false, if_false, Nat.zero_max, Nat.sub_self, Nat.shiftLeft_zero]
  omega

/-! ## `pack` -/

@[simp] theorem sgn_pack (s : Bool) (m : Nat) (e : Int) : sgn (pack s m e) = s := by
  unfold pack
  split
  · simp
  · split
    · simp
    · dsimp only; split <;> simp

@[simp] theorem isNan_pack (s : Bool) (m : Nat) (e : Int) : isNan (pack s m e) = false := by
  rw [Bool.eq_false_iff, ne_eq, isNan_iff]
  unfold pack
  split
  · simp
  · split
    · rw [expo_pattern]; omega
    · dsimp only; split <;> simp

/-- `pack` overflows exactly from biased exponent 255 on (R88). -/
theorem isFinite_pack (s : Bool) (m : Nat) (e : Int) : isFinite (pack s m e) = decide (e < 255) := by
  rw [Bool.eq_iff_iff, isFinite_iff, decide_eq_true_iff]
  unfold pack
  split
  · simp; omega
  · split
    · rw [expo_pattern]; omega
    · dsimp only; split <;> simp <;> omega

/-- The magnitude `pack` gives below overflow: exact for `e >= 1`, truncated below (R88). -/
theorem absUnits_pack (s : Bool) (m : Nat) (e : Int) (hm : 2 ^ 23 ≤ m) (hm' : m < 2 ^ 24) (he : e < 255) :
    absUnits (pack s m e) = if 1 ≤ e then m * 2 ^ (e.toNat - 1) else m / 2 ^ (1 - e).toNat := by
  unfold pack
  rw [if_neg (by omega)]
  by_cases h1 : 1 ≤ e
  · rw [if_pos h1, if_pos h1]
    exact absUnits_normal s e.toNat m (by omega) (by omega) hm hm'
  · rw [if_neg h1, if_neg h1]
    dsimp only
    by_cases h2 : 24 ≤ (1 - e).toNat
    · rw [if_pos h2, absUnits_subnormal _ _ (by omega)]
      exact (Nat.div_eq_of_lt (lt_of_lt_of_le hm' (Nat.pow_le_pow_right (by omega) h2))).symm
    · rw [if_neg h2, Nat.shiftRight_eq_div_pow]
      have h3 : m / 2 ^ (1 - e).toNat < 2 ^ 23 := by
        have h4 : 2 ^ 1 ≤ 2 ^ (1 - e).toNat := Nat.pow_le_pow_right (by omega) (by omega)
        exact Nat.div_lt_of_lt_mul (by nlinarith)
      exact absUnits_subnormal _ _ h3

/-! ## `normalizeMag` -/

/-- The leading one is at bit 23, and the value is kept but for the bits a right shift drops (R89). -/
theorem normalizeMag_spec (n : Nat) (e : Int) (hn : n ≠ 0) :
    2 ^ 23 ≤ (normalizeMag n e).1 ∧ (normalizeMag n e).1 < 2 ^ 24 ∧
    (n < 2 ^ 24 → ∃ k : Nat, (normalizeMag n e).1 = n * 2 ^ k ∧ (normalizeMag n e).2 = e - k) ∧
    (2 ^ 24 ≤ n → ∃ k : Nat, (normalizeMag n e).1 = n / 2 ^ k ∧ (normalizeMag n e).2 = e + k) := by
  have hl : 2 ^ n.log2 ≤ n := Nat.log2_self_le hn
  have hu : n < 2 ^ (n.log2 + 1) := Nat.lt_log2_self
  unfold normalizeMag
  dsimp only
  by_cases hp : 23 < n.log2
  · rw [if_pos hp]
    have hge : 2 ^ 24 ≤ n := le_trans (Nat.pow_le_pow_right (by omega) hp) hl
    have e1 : 2 ^ n.log2 = 2 ^ 23 * 2 ^ (n.log2 - 23) := by rw [← Nat.pow_add]; congr 1; omega
    have e2 : 2 ^ (n.log2 + 1) = 2 ^ 24 * 2 ^ (n.log2 - 23) := by rw [← Nat.pow_add]; congr 1; omega
    have pos : 0 < 2 ^ (n.log2 - 23) := Nat.pow_pos (by omega)
    simp only [Nat.shiftRight_eq_div_pow]
    refine ⟨?_, ?_, fun h => absurd hge (by omega), fun _ => ⟨n.log2 - 23, rfl, rfl⟩⟩
    · rw [Nat.le_div_iff_mul_le pos, ← e1]; exact hl
    · rw [Nat.div_lt_iff_lt_mul pos, ← e2]; exact hu
  · rw [if_neg hp]
    have hlt : n < 2 ^ 24 := lt_of_lt_of_le hu (Nat.pow_le_pow_right (by omega) (by omega))
    have e1 : 2 ^ 23 = 2 ^ n.log2 * 2 ^ (23 - n.log2) := by rw [← Nat.pow_add]; congr 1; omega
    have e2 : 2 ^ 24 = 2 ^ (n.log2 + 1) * 2 ^ (23 - n.log2) := by rw [← Nat.pow_add]; congr 1; omega
    have pos : 0 < 2 ^ (23 - n.log2) := Nat.pow_pos (by omega)
    simp only [Nat.shiftLeft_eq]
    refine ⟨?_, ?_, fun _ => ⟨23 - n.log2, rfl, rfl⟩, fun h => absurd hlt (by omega)⟩
    · rw [e1]; exact Nat.mul_le_mul_right _ hl
    · rw [e2]; exact Nat.mul_lt_mul_of_pos_right hu pos

/-! ## `norm` -/

/-- The loop of R90 shifts the leading one to bit 23, when it is not further up and the steps suffice. -/
theorem normLoop_spec (n m : Nat) (e : Int) (hm : m < 2 ^ 24) (hn : 2 ^ 23 ≤ m * 2 ^ n) :
    ∃ k : Nat, k ≤ n ∧ normLoop n m e = (m * 2 ^ k, e - k) ∧ 2 ^ 23 ≤ m * 2 ^ k ∧ m * 2 ^ k < 2 ^ 24 := by
  induction n generalizing m e with
  | zero => exact ⟨0, le_refl _, by simp [normLoop], by simpa using hn, by simpa using hm⟩
  | succ n ih =>
    unfold normLoop
    by_cases hb : 2 ^ 23 ≤ m
    · have ht : m.testBit 23 = true := by
        rw [Nat.testBit_eq_decide_div_mod_eq, decide_eq_true_iff]; omega
      rw [if_pos ht]
      exact ⟨0, by omega, by simp, by simpa using hb, by simpa using hm⟩
    · have ht : ¬ m.testBit 23 = true := by
        rw [Nat.testBit_eq_decide_div_mod_eq, decide_eq_true_iff]; omega
      rw [if_neg ht]
      have h2 : m <<< 1 = m * 2 := by rw [Nat.shiftLeft_eq]
      obtain ⟨k, hk, heq, hlo, hhi⟩ := ih (m <<< 1) (e - 1) (by omega)
        (by rw [h2]; rw [Nat.pow_succ] at hn; calc 2 ^ 23 ≤ m * (2 ^ n * 2) := hn
                                               _ = m * 2 * 2 ^ n := by ring)
      have h3 : m <<< 1 * 2 ^ k = m * 2 ^ (k + 1) := by rw [h2, Nat.pow_succ]; ring
      rw [h3] at heq hlo hhi
      refine ⟨k + 1, by omega, ?_, hlo, hhi⟩
      rw [heq]
      congr 1
      push_cast
      ring

/-- `norm` of a finite nonzero pattern: the significand has its leading one at bit 23, and the magnitude is
`m * 2^(e - 150)` (R90). -/
theorem norm_spec (r : Word) (hf : isFinite r = true) (hz : isZero r = false) :
    2 ^ 23 ≤ (norm r).1 ∧ (norm r).1 < 2 ^ 24 ∧ -22 ≤ (norm r).2 ∧ (norm r).2 ≤ 254 ∧
    (norm r).1 * 2 ^ ((norm r).2 + 22).toNat = absUnits r * 2 ^ 23 := by
  have hm := mant_lt r
  have he := expo_lt r
  rw [isFinite_iff] at hf
  have hz' : ¬ (expo r = 0 ∧ mant r = 0) := by rw [← isZero_iff, hz]; simp
  unfold norm
  by_cases h0 : expo r = 0
  · have hm0 : mant r ≠ 0 := fun h => hz' ⟨h0, h⟩
    rw [if_neg (by omega)]
    obtain ⟨k, hk, heq, hlo, hhi⟩ := normLoop_spec 23 (mant r) 1 (by omega) (by omega)
    rw [heq]
    refine ⟨hlo, hhi, by simp; omega, by simp; omega, ?_⟩
    have h1 : absUnits r = mant r := by simp [absUnits, magnitude, h0]
    have h2 : (1 - (k : Int) + 22).toNat = 23 - k := by omega
    rw [h1, h2]
    dsimp only
    rw [Nat.mul_assoc, ← Nat.pow_add]
    congr 2
    omega
  · rw [if_pos h0]
    refine ⟨by dsimp only; omega, by dsimp only; omega, by dsimp only; omega, by dsimp only; omega, ?_⟩
    have h1 : absUnits r = (mant r + 0x800000) * 2 ^ (expo r - 1) := by
      have : max (expo r) 1 = expo r := by omega
      simp [absUnits, magnitude, h0, this, Nat.shiftLeft_eq]
    have h2 : ((expo r : Int) + 22).toNat = (expo r - 1) + 23 := by omega
    rw [h1]
    dsimp only
    rw [h2, Nat.pow_add, Nat.mul_assoc]

end Sys2Proof.Machine
end

