-- ==== Sys2Proof/Laws/PerInstr.lean ====
section
/-! SUPPORT. The layout of every operation's command word, one lemma a constructor (30_encoding.md R56, R57, R60). -/

namespace Sys2Proof

theorem commandWord_toNat (op : BitVec 8) (a b c : Word) :
    (commandWord op a b c).toNat = op.toNat * 2 ^ 96 + a.toNat * 2 ^ 64 + b.toNat * 2 ^ 32 + c.toNat := by
  unfold commandWord
  simp only [BitVec.toNat_append]
  rw [← Nat.shiftLeft_add_eq_or_of_lt a.isLt, ← Nat.shiftLeft_add_eq_or_of_lt b.isLt,
    ← Nat.shiftLeft_add_eq_or_of_lt c.isLt]
  simp only [Nat.shiftLeft_eq]
  omega

theorem commandWord_op (op : BitVec 8) (a b c : Word) : CommandWord.op (commandWord op a b c) = op := by
  apply BitVec.eq_of_toNat_eq
  have := c.isLt; have := b.isLt; have := a.isLt; have := op.isLt
  rw [CommandWord.op, BitVec.extractLsb'_toNat, commandWord_toNat, Nat.shiftRight_eq_div_pow]
  omega

theorem commandWord_a (op : BitVec 8) (a b c : Word) : CommandWord.a (commandWord op a b c) = a := by
  apply BitVec.eq_of_toNat_eq
  have := c.isLt; have := b.isLt; have := a.isLt; have := op.isLt
  rw [CommandWord.a, BitVec.extractLsb'_toNat, commandWord_toNat, Nat.shiftRight_eq_div_pow]
  omega

theorem commandWord_b (op : BitVec 8) (a b c : Word) : CommandWord.b (commandWord op a b c) = b := by
  apply BitVec.eq_of_toNat_eq
  have := c.isLt; have := b.isLt; have := a.isLt; have := op.isLt
  rw [CommandWord.b, BitVec.extractLsb'_toNat, commandWord_toNat, Nat.shiftRight_eq_div_pow]
  omega

theorem commandWord_c (op : BitVec 8) (a b c : Word) : CommandWord.c (commandWord op a b c) = c := by
  apply BitVec.eq_of_toNat_eq
  have := c.isLt; have := b.isLt; have := a.isLt; have := op.isLt
  rw [CommandWord.c, BitVec.extractLsb'_toNat, commandWord_toNat, Nat.shiftRight_eq_div_pow]
  omega

namespace Laws.EncodeLayout

/-- The four fields of the command word of `i` are its `op` number and its operands, zero where the format reads none,
and the word is legal. -/
def Statement (i : Instr) : Prop :=
  CommandWord.op (encode i) = i.opcode ∧ CommandWord.a (encode i) = i.operands.1 ∧
  CommandWord.b (encode i) = i.operands.2.1 ∧ CommandWord.c (encode i) = i.operands.2.2 ∧
  commandLegal (encode i) = true

theorem of_legal (i : Instr) (h : legalOps.contains i.opcode = true) : Statement i := by
  have hop : CommandWord.op (encode i) = i.opcode := commandWord_op _ _ _ _
  refine ⟨hop, commandWord_a _ _ _ _, commandWord_b _ _ _ _, commandWord_c _ _ _ _, ?_⟩
  unfold commandLegal
  unfold CommandWord.op at hop
  rw [hop]
  exact h

theorem raw (a : Word) : Statement (.raw a) := of_legal _ rfl
theorem dsign (a : Word) : Statement (.dsign a) := of_legal _ rfl
theorem drexp (a : Word) : Statement (.drexp a) := of_legal _ rfl
theorem drman (a : Word) : Statement (.drman a) := of_legal _ rfl
theorem dexp (a : Word) : Statement (.dexp a) := of_legal _ rfl
theorem dman (a : Word) : Statement (.dman a) := of_legal _ rfl
theorem fromparts (a b c : Word) : Statement (.fromparts a b c) := of_legal _ rfl
theorem scaleb (a b : Word) : Statement (.scaleb a b) := of_legal _ rfl
theorem normman (a : Word) : Statement (.normman a) := of_legal _ rfl
theorem normexp (a : Word) : Statement (.normexp a) := of_legal _ rfl
theorem add (a b : Word) : Statement (.add a b) := of_legal _ rfl
theorem sub (a b : Word) : Statement (.sub a b) := of_legal _ rfl
theorem mul (a b : Word) : Statement (.mul a b) := of_legal _ rfl
theorem div (a b : Word) : Statement (.div a b) := of_legal _ rfl
theorem neg (a : Word) : Statement (.neg a) := of_legal _ rfl
theorem floor (a : Word) : Statement (.floor a) := of_legal _ rfl
theorem ceil (a : Word) : Statement (.ceil a) := of_legal _ rfl
theorem round (a : Word) : Statement (.round a) := of_legal _ rfl
theorem trunc (a : Word) : Statement (.trunc a) := of_legal _ rfl
theorem sqrt (a : Word) : Statement (.sqrt a) := of_legal _ rfl
theorem exp (a : Word) : Statement (.exp a) := of_legal _ rfl
theorem log (a : Word) : Statement (.log a) := of_legal _ rfl
theorem log2 (a : Word) : Statement (.log2 a) := of_legal _ rfl
theorem log10 (a : Word) : Statement (.log10 a) := of_legal _ rfl
theorem logb (a b : Word) : Statement (.logb a b) := of_legal _ rfl
theorem pow (a b : Word) : Statement (.pow a b) := of_legal _ rfl
theorem sin (a : Word) : Statement (.sin a) := of_legal _ rfl
theorem cos (a : Word) : Statement (.cos a) := of_legal _ rfl
theorem tan (a : Word) : Statement (.tan a) := of_legal _ rfl
theorem asin (a : Word) : Statement (.asin a) := of_legal _ rfl
theorem acos (a : Word) : Statement (.acos a) := of_legal _ rfl
theorem atan (a : Word) : Statement (.atan a) := of_legal _ rfl
theorem atan2 (a b : Word) : Statement (.atan2 a b) := of_legal _ rfl

end Laws.EncodeLayout

end Sys2Proof
end

