-- ==== Sys2Proof/Laws/Step.lean ====
section
/-! SUPPORT. Everything a step can do, said once (R23, R24, R310): every invariant follows from these. -/

namespace Sys2Proof.Machine

/-- Everything the work on the oldest command can do: let a cycle go by, or put a response to it on the port. -/
theorem runHead_cases (s : State) :
    (s.due = none ∧ runHead s = .next s.tick) ∨
    (∃ w p, s.due = some w ∧ Answers w p ∧ runHead s = .next { s with rsp := some p }) := by
  unfold runHead
  cases hd : s.due with
  | none => exact .inl ⟨rfl, rfl⟩
  | some w =>
    refine .inr ?_
    cases hw : decode w with
    | ok i => exact ⟨w, ⟨.ok, valueOf i⟩, rfl, (answers_ok w i hw _).2 rfl, by simp [hw, exec_eq, respond_eq]⟩
    | error e => exact 
      ⟨w, ⟨.illegalOp, Config.freeIllegalR s.cycle w⟩, rfl, (answers_error w e hw _).2 rfl,
        by simp [hw, State.takeIllegalOp]⟩

/-- The work on the oldest command always has a next state. -/
theorem runHead_next (s : State) : ∃ t, runHead s = .next t := by
  obtain ⟨-, h⟩ | ⟨_, _, -, -, h⟩ := runHead_cases s <;> exact ⟨_, h⟩

/-- Everything a step can do. -/
theorem step_cases (s : State) :
    (s.input.rst = true ∧ step s = .next s.resetEdge) ∨
    (s.input.rst = false ∧ s.breaksHandshake = true ∧ step s = .refused .handshakeBroken) ∨
    (s.input.rst = false ∧ s.breaksHandshake = false ∧ step s = runHead s.clockEdge) := by
  unfold step
  cases s.input.rst
  · cases s.breaksHandshake <;> simp
  · simp

/-- A command is due only if it is the oldest, its latency over, and the port free. -/
theorem due_eq_some (s : State) (w : CommandWord) :
    s.due = some w ↔ s.rsp = none ∧ ∃ q, s.inflight = ⟨w, 0⟩ :: q := by
  unfold State.due
  constructor
  · intro h
    split at h
    · next h1 h2 => injection h with h; subst h; exact ⟨h1, _, h2⟩
    · simp at h
  · rintro ⟨h1, q, h2⟩
    simp [h1, h2]

/-- Nothing is accepted while `rst` is 1 (R310). -/
theorem accepted_of_rst (s : State) (h : s.input.rst = true) : s.accepted = none := by simp [State.accepted, h]

/-- Nothing is delivered while `rst` is 1 (R310). -/
theorem delivered_of_rst (s : State) (h : s.input.rst = true) : s.delivered = none := by simp [State.delivered, h]

/-- A command is accepted only into a queue with room (R24). -/
theorem accepted_cmdReady (s : State) (w : CommandWord) (h : s.accepted = some w) :
    s.cmdReady = true ∧ s.input.presented = some w ∧ s.input.rst = false := by
  unfold State.accepted at h
  split at h
  · simp at h
  · next hr =>
    split at h
    · simp at h
    · next v hv =>
      split at h
      · next hc => injection h with h; subst h; exact ⟨hc, hv, by simpa using hr⟩
      · simp at h

theorem cmdReady_room (s : State) (h : s.cmdReady = true) : s.inflight.length < queueDepth := by
  unfold State.cmdReady at h
  simp at h
  exact h.1

/-- What is delivered is what is on the port (R23). -/
theorem delivered_rsp (s : State) (p : Response) (h : s.delivered = some p) :
    s.rsp = some p ∧ s.input.rspReady = true ∧ s.input.rst = false := by
  unfold State.delivered at h
  split at h
  · simp at h
  · split at h
    · next h1 h2 => exact ⟨h, h2, by simpa using h1⟩
    · simp at h

/-- The words in the queue after the edge (R24). -/
theorem nextQueue_words (s : State) :
    s.nextQueue.map Flight.word =
      (if s.delivered.isSome then s.inflight.tail else s.inflight).map Flight.word ++ s.accepted.toList := by
  unfold State.nextQueue
  cases s.delivered <;> cases s.accepted <;> simp

theorem queueDepth_pos : 1 ≤ queueDepth := Nat.le_max_right _ _

/-! ## Runs -/

theorem run_succ (M : Host.Core) (n : Nat) (s : M.State) :
    M.run (n + 1) s =
      match M.step s with
      | .next t => M.run n t
      | .fault r => .fault r
      | .refused r => .refused r := rfl

/-- A run with a next state starts with a step that has one. -/
theorem run_cases (n : Nat) {s u : State} (h : Host.Core.run Sys2Proof.core (n + 1) s = .next u) :
    ∃ t, step s = .next t ∧ Host.Core.run Sys2Proof.core n t = .next u := by
  have h2 := run_succ Sys2Proof.core n s
  rw [h] at h2
  cases hs : step s with
  | next t =>
    have h3 : Sys2Proof.core.step s = .next t := hs
    rw [h3] at h2
    exact ⟨t, rfl, h2.symm⟩
  | fault r =>
    have h3 : Sys2Proof.core.step s = .fault r := hs
    rw [h3] at h2
    simp at h2
  | refused r =>
    have h3 : Sys2Proof.core.step s = .refused r := hs
    rw [h3] at h2
    simp at h2

/-- A step with a next state starts a run. -/
theorem run_next (n : Nat) {s t : State} (h : step s = .next t) :
    Host.Core.run Sys2Proof.core (n + 1) s = Host.Core.run Sys2Proof.core n t := by
  have h1 : Sys2Proof.core.step s = .next t := h
  have h2 := run_succ Sys2Proof.core n s
  rw [h1] at h2
  exact h2

/-! ## The block's choice of `cmd_ready` -/

/-- The block holds `cmd_ready` at 0 by choice for a finite number of cycles only (R318 item 1). -/
theorem readyChoice_again (gap : Nat → Nat) (n : Nat) : ∃ k, readyChoice gap (n + k) = true := by
  have main : ∀ m n, readyCountdown gap n = m → ∃ k, readyChoice gap (n + k) = true := by
    intro m
    induction m with
    | zero => exact fun n h => ⟨0, by simp [readyChoice, h]⟩
    | succ m ih =>
      intro n h
      have h1 : readyCountdown gap (n + 1) = m := by simp [readyCountdown, h]
      obtain ⟨k, hk⟩ := ih (n + 1) h1
      exact ⟨k + 1, by rw [← hk]; congr 1; omega⟩
  exact main _ n rfl

end Sys2Proof.Machine
end

