-- ==== Sys2Proof/Machine/HostLayer.lean ====
section
/-! DEFINITION. What 49_host_layer.md settles of the software around the block: comparison and equality (R256, R257), the
integer conversions (R259, R260), `Abs` (R264), `Max` and `Min` (R265) and the tolerance of `Approximately` (R266).

The host layer is out of the block (00_scope.md R5, R255): no operation, no state and no step uses this file. An answer
`none` marks operands for which the source gives no result (93_implementation_defined.md U15; log entry 21). -/

namespace Sys2Proof.Machine.HostLayer

/-- `Equals`: all NaNs are equal to each other, and `+0` equals `-0` (R257). The operators of R256 are `fpEq`, `fpLt`,
`fpGt`, `fpLe`, `fpGe` of Flags.lean. -/
def equals (a b : Word) : Bool := if isNan a || isNan b then isNan a && isNan b else decide (key a = key b)

/-- Conversion to a signed 32-bit integer, toward zero (R259). -/
def toInt32 (r : Word) : Option Word :=
  let e : Int := (expo r : Int) - 127
  if r = 0xCF000000#32 then some 0x80000000#32
  else if e < 0 then some 0
  else if e ≤ 30 then
    let mag := if e ≤ 23 then magnitude r >>> (23 - e).toNat else magnitude r <<< (e - 23).toNat
    some (ofS32 (if sgn r then -(mag : Int) else mag))
  else none

/-- Conversion from a signed 32-bit integer, dropping the bits that do not fit (R260). -/
def ofInt32 (n : Word) : Word :=
  if n = 0 then 0
  else if n = 0x80000000#32 then 0xCF000000#32
  else
    let mag := (asS32 n).natAbs
    let p := mag.log2
    pattern (decide (asS32 n < 0)) (127 + p) (if p ≤ 23 then mag <<< (23 - p) else mag >>> (p - 23))

/-- `Abs` clears bit 31 (R264). -/
def abs (a : Word) : Word := fabs a

/-- `Max`: with exactly one NaN operand, that operand (R265; 90_conflicts.md C7); with two, and for two zeros of different
sign, the source says nothing. DESIGN CHOICE (log entry 24, unsafe): for two operands neither of which is NaN it is the
one that is larger in the order of R256; R263 says that the source gives `Max` no body. -/
def max (a b : Word) : Option Word :=
  match isNan a, isNan b with
  | true, true => none
  | true, false => some a
  | false, true => some b
  | false, false => if a ≠ b ∧ key a = key b then none else some (if key a < key b then b else a)

/-- `Min`, as `max` (R265). DESIGN CHOICE (log entry 24, unsafe): for two operands neither of which is NaN, the smaller in
the order of R256. -/
def min (a b : Word) : Option Word :=
  match isNan a, isNan b with
  | true, true => none
  | true, false => some a
  | false, true => some b
  | false, false => if a ≠ b ∧ key a = key b then none else some (if key b < key a then b else a)

/-- The tolerance of `Approximately` on finite operands: `max(1e-6 * max(|a|, |b|), 8 * Epsilon)` (R266). DESIGN CHOICE (log
entry 25, unsafe): 1e-6 is the exact rational 1/10^6 and the product is exact; R266 leaves open the pattern used for
1e-6, and with it whether the software multiplies patterns. -/
def tolerance (a b : Word) : Rat := Max.max (Max.max |val a| |val b| / 10 ^ 6) (8 * val Pat.epsilon)

end Sys2Proof.Machine.HostLayer
end

