-- ==== Sys2Proof/Tests/CfgRef.lean ====
section
/-! SUPPORT. CFG_REF, the candidate configuration of 93_implementation_defined.md G1 to G7, after listings B and C of
96_reference_model.md. It is not normative and no definition of the model uses it. It exists to run the dispatch of
the open operations, and the arithmetic under them, on concrete words. -/

namespace Sys2Proof.Machine.CfgRef

/-- `f2i_trunc(r)`: truncation toward zero of a finite value below `2^31`. -/
def toIntTrunc (r : Word) : Int :=
  let e : Int := (expo r : Int) - 127
  if e < 0 then 0
  else
    let mag := mant r + 0x800000
    let v := if 23 ≤ e then mag <<< (e - 23).toNat else mag >>> (23 - e).toNat
    if sgn r then -(v : Int) else v

/-- `i2f(n)`, exact for `|n| < 2^24`. -/
def ofIntExact (n : Int) : Word :=
  if n = 0 then 0
  else
    let p := n.natAbs.log2
    pattern (decide (n < 0)) (127 + p) (n.natAbs <<< (23 - p))

/-- `v & 0xFFFFF000`. -/
def high (v : Word) : Word := v &&& 0xFFFFF000#32

/-- G1, the core of EXP after its range reduction. -/
def expPoly (x hi lo : Word) (k : Int) : Word :=
  let xx := fpMul x x
  let c := fpSub x (fpMul xx (fpAdd 0x3E2AAA8F (fpMul xx 0xBB355215)))
  let y := fpAdd Pat.one (fpAdd (fpSub (fpDiv (fpMul x c) (fpSub Pat.two c)) lo) hi)
  if k = 0 then y else fpScaleb y k

/-- G1, the core of EXP. -/
def expCore (x : Word) : Word :=
  let hx := fabs x
  if 0x3EB17218#32 < hx then
    let k : Int :=
      if 0x3F851592#32 < hx then toIntTrunc (fpAdd (fpMul 0x3FB8AA3B x) (if sgn x then fneg Pat.half else Pat.half))
      else if sgn x then -1 else 1
    let hi := fpSub x (fpMul (ofIntExact k) 0x3F317200)
    let lo := fpMul (ofIntExact k) 0x35BFBE8E
    expPoly (fpSub hi lo) hi lo k
  else if 0x39000000#32 < hx then expPoly x x 0 0
  else fpAdd Pat.one x

/-- G2, the core of LOG, for a reduced argument. -/
def logPoly (f : Word) (k : Int) : Word :=
  let s := fpDiv f (fpAdd Pat.two f)
  let z := fpMul s s
  let w := fpMul z z
  let t1 := fpMul w (fpAdd 0x3ECCCE13 (fpMul w 0x3E789E26))
  let t2 := fpMul z (fpAdd 0x3F2AAAAA (fpMul w 0x3E91E9EE))
  let hfsq := fpMul (fpMul Pat.half f) f
  let dk := ofIntExact k
  let r := fpSub (fpAdd (fpMul s (fpAdd hfsq (fpAdd t2 t1))) (fpMul dk 0x3717F7D1)) hfsq
  fpAdd (fpAdd r f) (fpMul dk 0x3F317180)

/-- G2, the core of LOG. -/
def logCore (a : Word) : Word :=
  let sub := decide (a < 0x00800000#32)
  let x := if sub then fpScaleb a 25 else a
  if x = Pat.one then 0
  else
    let ix := x + (0x3F800000#32 - 0x3F3504F3#32)
    let k : Int := (if sub then -25 else 0) + ((ix >>> 23).toNat : Int) - 127
    logPoly (fpSub ((ix &&& 0x007FFFFF#32) + 0x3F3504F3#32) Pat.one) k

/-- G3, the two halves of the polynomial of ATAN, summed. -/
def atanPoly (x : Word) : Word :=
  let z := fpMul x x
  let w := fpMul z z
  fpAdd (fpMul z (fpAdd 0x3EAAAAA9 (fpMul w (fpAdd 0x3E11F50D (fpMul w 0x3D7CAC25)))))
    (fpMul w (fpAdd 0xBE4CCA98 (fpMul w 0xBDDA1247)))

/-- G3, the result in a reduced sub-range with table words `hi`, `lo`. -/
def atanReduced (neg : Bool) (x hi lo : Word) : Word :=
  let z := fpSub hi (fpSub (fpSub (fpMul x (atanPoly x)) lo) x)
  if neg then fneg z else z

/-- G3, the core of ATAN. -/
def atanCore (a : Word) : Word :=
  let ix := fabs a
  if 0x4C800000#32 ≤ ix then signBit a ||| 0x3FC90FDA#32
  else if ix < 0x3EE00000#32 then
    if ix < 0x39800000#32 then a else fpSub a (fpMul a (atanPoly a))
  else if ix < 0x3F300000#32 then
    atanReduced (sgn a) (fpDiv (fpSub (fpMul Pat.two ix) Pat.one) (fpAdd Pat.two ix)) 0x3EED6338 0x31AC3769
  else if ix < 0x3F980000#32 then
    atanReduced (sgn a) (fpDiv (fpSub ix Pat.one) (fpAdd ix Pat.one)) 0x3F490FDA 0x33222168
  else if ix < 0x401C0000#32 then
    atanReduced (sgn a) (fpDiv (fpSub ix 0x3FC00000) (fpAdd Pat.one (fpMul 0x3FC00000 ix))) 0x3F7B985E 0x33140FB4
  else atanReduced (sgn a) (fpDiv Pat.minusOne ix) 0x3FC90FDA 0x33A22168

/-- G4, the rational `R(z)` of ASIN and ACOS. -/
def asinR (z : Word) : Word :=
  fpDiv (fpMul z (fpAdd 0x3E2AAA75 (fpMul z (fpAdd 0xBD2F13BA (fpMul z 0xBC0DD36B)))))
    (fpAdd Pat.one (fpMul z 0xBF34E5AE))

/-- G4, the core of ASIN. -/
def asinCore (a : Word) : Word :=
  let ix := fabs a
  if ix < Pat.half then
    if ix < 0x39800000#32 then a else fpAdd a (fpMul a (asinR (fpMul a a)))
  else
    let z := fpMul (fpSub Pat.one ix) Pat.half
    let s := fpSqrt z
    let t := fpMul Pat.two (fpAdd s (fpMul s (asinR z)))
    let r := fpSub 0x3FC90FDA (fpSub t 0x33A22168)
    if sgn a then fneg r else r

/-- G5, the core of ACOS. -/
def acosCore (a : Word) : Word :=
  let ix := fabs a
  if ix < Pat.half then
    if ix ≤ 0x32800000#32 then 0x3FC90FDA
    else fpSub 0x3FC90FDA (fpSub a (fpSub 0x33A22168 (fpMul a (asinR (fpMul a a)))))
  else if sgn a then
    let z := fpMul (fpAdd Pat.one a) Pat.half
    let s := fpSqrt z
    fpMul Pat.two (fpSub 0x3FC90FDA (fpAdd s (fpSub (fpMul (asinR z) s) 0x33A22168)))
  else
    let z := fpMul (fpSub Pat.one a) Pat.half
    let s := fpSqrt z
    let df := high s
    let c := fpDiv (fpSub z (fpMul df df)) (fpAdd s df)
    fpMul Pat.two (fpAdd df (fpAdd (fpMul (asinR z) s) c))

/-- The record CFG_REF without the two cores that call other operations, which `atan2Core` needs. -/
def base : Cfg where
  depth := 1
  expOvfThr := 0x42B17218
  expUdfThr := 0x42CFF1B5
  expCore := expCore
  logCore := logCore
  powCore _ _ := 0
  atanCore := atanCore
  asinCore := asinCore
  acosCore := acosCore
  atan2Core _ _ := 0
  hostByteOrder := .little

/-- G6, the core of ATAN2. -/
def atan2Core (y x : Word) : Word :=
  let ix := (fabs x).toNat
  let iy := (fabs y).toNat
  if ix + (26 <<< 23) < iy then signBit y ||| Pat.halfPi
  else
    let z := if sgn x ∧ iy + (26 <<< 23) < ix then 0 else fpAtan base (fabs (fpDiv y x))
    match sgn x, sgn y with
    | false, false => z
    | false, true => fneg z
    | true, false => fpSub Pat.pi (fpSub z 0xB3BBBD2E)
    | true, true => fpSub (fpSub z 0xB3BBBD2E) Pat.pi

/-- Horner evaluation with the block's operations, the leading coefficient last. -/
def horner (x : Word) : List Word → Word
  | [] => 0
  | [c] => c
  | c :: cs => fpAdd c (fpMul x (horner x cs))

/-- G7, `log2|x|` as a pair of words: `n` is the exponent taken out, `ix` the reduced argument, `k` selects the centre. -/
def powLogPair (n : Int) (k : Nat) (ix : Word) : Word × Word :=
  let bp := if k = 1 then 0x3FC00000#32 else Pat.one
  let dpH := if k = 1 then 0x3F15C000#32 else 0
  let dpL := if k = 1 then 0x35D1CFDC#32 else 0
  let u := fpSub ix bp
  let v := fpDiv Pat.one (fpAdd ix bp)
  let s := fpMul u v
  let sH := high s
  let tH := (((ix >>> 1) &&& 0xFFFFF000#32) ||| 0x20000000#32) + 0x00400000#32 + (BitVec.ofNat 32 k) <<< 21
  let tL := fpSub ix (fpSub tH bp)
  let sL := fpMul v (fpSub (fpSub u (fpMul sH tH)) (fpMul sH tL))
  let s2 := fpMul s s
  let r := fpMul (fpMul s2 s2)
    (horner s2 [0x3F19999A, 0x3EDB6DB7, 0x3EAAAAAB, 0x3E8BA305, 0x3E6C3255, 0x3E53F142])
  let r := fpAdd r (fpMul sL (fpAdd sH s))
  let sH2 := fpMul sH sH
  let tH := high (fpAdd (fpAdd Pat.three sH2) r)
  let tL := fpSub r (fpSub (fpSub tH Pat.three) sH2)
  let u := fpMul sH tH
  let v := fpAdd (fpMul sL tH) (fpMul tL s)
  let pH := high (fpAdd u v)
  let pL := fpSub v (fpSub pH u)
  let zH := fpMul 0x3F764000 pH
  let zL := fpAdd (fpAdd (fpMul 0xB8F623C6 pH) (fpMul pL 0x3F76384F)) dpL
  let t := ofIntExact n
  let t1 := high (fpAdd (fpAdd (fpAdd zH zL) dpH) t)
  (t1, fpSub zL (fpSub (fpSub (fpSub t1 t) dpH) zH))

/-- G7, `log2|x|` near 1, for a huge exponent. -/
def powLogNearOne (ax : Word) : Word × Word :=
  let t := fpSub ax Pat.one
  let w := fpMul (fpMul t t) (fpSub Pat.half (fpMul t (fpSub 0x3EAAAAAB (fpMul t 0x3E800000))))
  let u := fpMul 0x3FB8AA00 t
  let v := fpSub (fpMul t 0x36ECA570) (fpMul w 0x3FB8AA3B)
  let t1 := high (fpAdd u v)
  (t1, fpSub v (fpSub t1 u))

/-- G7, the reduction of `|x|` for an ordinary exponent. -/
def powLog (x : Word) : Word × Word :=
  let sub := decide (x < 0x00800000#32)
  let ax := if sub then fpScaleb x 24 else x
  let n : Int := (if sub then -24 else 0) + ((ax >>> 23).toNat : Int) - 127
  let j := ax &&& 0x007FFFFF#32
  let ix := j ||| 0x3F800000#32
  if j ≤ 0x1CC471#32 then powLogPair n 0 ix
  else if j < 0x5DB3D7#32 then powLogPair n 1 ix
  else powLogPair (n + 1) 0 (ix - 0x00800000#32)

/-- G7, `2^(pH + pL)` scaled by `2^n` after the integer part `n` has been taken out of `pH`. -/
def powExp (pH pL : Word) (n : Int) : Word :=
  let t := fpAdd pL pH &&& 0xFFFF8000#32
  let u := fpMul t 0x3F317200
  let v := fpAdd (fpMul (fpSub pL (fpSub t pH)) 0x3F317218) (fpMul t 0x35BFBE8C)
  let z := fpAdd u v
  let w := fpSub v (fpSub z u)
  let tt := fpMul z z
  let t1 := fpSub z (fpMul tt (horner tt [0x3E2AAAAB, 0xBB360B61, 0x388AB355, 0xB5DDEA0E, 0x3331BB4C]))
  let r := fpSub (fpDiv (fpMul z t1) (fpSub t1 Pat.two)) (fpAdd w (fpMul z w))
  let z := fpSub Pat.one (fpSub r z)
  let j := asS32 z + n * 0x800000
  if j >>> 23 ≤ 0 then fpScaleb z n else BitVec.ofInt 32 j

/-- G7, from the split product to the result: the overflow and underflow tests, and the integer part of `z`. -/
def powFinish (pH pL : Word) : Word :=
  let z := fpAdd pL pH
  let j := asS32 z
  let az := fabs z
  if 0x43000000 < j ∨ (j = 0x43000000 ∧ fpGt (fpAdd pL 0x3338AA3C) (fpSub z pH)) then Pat.pinf
  else if ¬ 0x43000000 ≤ j ∧ (0x43160000#32 < az ∨ (z = 0xC3160000#32 ∧ fpLe pL (fpSub z pH))) then 0
  else if 0x3F000000#32 < az then
    let k := (az >>> 23).toNat - 127 + 1
    let k := if (az >>> 23).toNat < 127 then 0 else k
    let m := z + 0x00800000#32 >>> k
    let k2 := ((fabs m) >>> 23).toNat - 127
    let t := m &&& ~~~(0x007FFFFF#32 >>> k2)
    let n : Int := (((m &&& 0x007FFFFF#32) ||| 0x00800000#32) >>> (23 - k2)).toNat
    powExp (fpSub pH t) pL (if j < 0 then -n else n)
  else powExp pH pL 0

/-- G7, the core of POW: `x` positive, finite, nonzero, not 1; `y` finite and nonzero. -/
def powCore (x y : Word) : Word :=
  let iy := fabs y
  let finish (p : Word × Word) : Word :=
    let y1 := high y
    powFinish (fpMul y1 p.1) (fpAdd (fpMul (fpSub y y1) p.1) (fpMul y p.2))
  if iy = Pat.one then (if sgn y then fpDiv Pat.one x else x)
  else if 0x4D000000#32 < iy then
    if x < 0x3F7FFFF8#32 then (if sgn y then Pat.pinf else 0)
    else if 0x3F800007#32 < x then (if sgn y then 0 else Pat.pinf)
    else finish (powLogNearOne x)
  else finish (powLog x)

/-- CFG_REF. -/
def cfg : Cfg := { base with powCore := powCore, atan2Core := atan2Core }

end Sys2Proof.Machine.CfgRef
end

