-- ==== Sys2Proof/Tests/Slice0.lean ====
section
/-! SUPPORT. Tests on fixed values. Expected words come from spec/: the encodings of 30_encoding.md written out by hand, the
examples of the rules, and the tables of 95_test_vectors.md and 95b_test_vectors_transcendental.md. The last part holds, for
every statement of Certificates/Slice0/Obligations.lean that has hypotheses, a state and operands that meet them. -/

namespace Sys2Proof.Machine.Tests

/-- The response the next step makes to the command word `w`, right after reset. -/
def responseTo (w : Nat) : Option Response :=
  match step (State.reset.withFetchWord 104 w) with
  | .next t => t.rsp
  | _ => none

/-! ## Well-formedness: one ill-formed term for each check -/

theorem test_commandLegal_refuses_op06 : commandLegal 0x06_3F800000_40000000_00000000#104 = false := by decide
theorem test_commandLegal_refuses_opFF : commandLegal 0xFF_00000000_00000000_00000000#104 = false := by decide
theorem test_commandLegal_accepts_add : commandLegal 0x30_3F800000_40000000_00000000#104 = true := by decide
theorem test_depthLegal_refuses_zero : Cfg.depthLegal { CfgRef.cfg with depth := 0 } = false := by decide
theorem test_ovfLegal_refuses_one : Cfg.ovfLegal { CfgRef.cfg with expOvfThr := 0x3F800000 } = false := by decide
theorem test_ovfLegal_refuses_above : Cfg.ovfLegal { CfgRef.cfg with expOvfThr := 0x42B17219 } = false := by decide
theorem test_udfLegal_refuses_one : Cfg.udfLegal { CfgRef.cfg with expUdfThr := 0x3F800000 } = false := by decide
theorem test_udfLegal_refuses_infinity : Cfg.udfLegal { CfgRef.cfg with expUdfThr := 0x7F800000 } = false := by decide
theorem test_cfgRef_thresholds_legal :
    (CfgRef.cfg.depthLegal && CfgRef.cfg.ovfLegal && CfgRef.cfg.udfLegal) = true := by decide

/-! ## Decoding: one word for every operation, from the layout of R56 and the numbers of R60 -/

theorem test_decode_raw : decode 0x00_7FC12345_00000000_00000000#104 = .ok (.raw 0x7FC12345) := by decide
theorem test_decode_dsign : decode 0x01_C0490FDB_00000000_00000000#104 = .ok (.dsign 0xC0490FDB) := by decide
theorem test_decode_drexp : decode 0x02_C0490FDB_00000000_00000000#104 = .ok (.drexp 0xC0490FDB) := by decide
theorem test_decode_drman : decode 0x03_C0490FDB_00000000_00000000#104 = .ok (.drman 0xC0490FDB) := by decide
theorem test_decode_dexp : decode 0x04_00000001_00000000_00000000#104 = .ok (.dexp 1) := by decide
theorem test_decode_dman : decode 0x05_80000005_00000000_00000000#104 = .ok (.dman 0x80000005) := by decide
theorem test_decode_fromparts : decode 0x10_00000001_00000080_00490FDB#104 = .ok (.fromparts 1 0x80 0x490FDB) := by decide
theorem test_decode_scaleb : decode 0x11_3FC00000_FFFFFF6B_00000000#104 = .ok (.scaleb 0x3FC00000 0xFFFFFF6B) := by decide
theorem test_decode_normman : decode 0x20_80000005_00000000_00000000#104 = .ok (.normman 0x80000005) := by decide
theorem test_decode_normexp : decode 0x21_00000001_00000000_00000000#104 = .ok (.normexp 1) := by decide
theorem test_decode_add : decode 0x30_3F800000_40000000_00000000#104 = .ok (.add 0x3F800000 0x40000000) := by decide
theorem test_decode_sub : decode 0x31_40490FDB_3FC90FDB_00000000#104 = .ok (.sub 0x40490FDB 0x3FC90FDB) := by decide
theorem test_decode_mul : decode 0x32_40000000_40400000_00000000#104 = .ok (.mul 0x40000000 0x40400000) := by decide
theorem test_decode_div : decode 0x33_40C00000_40000000_00000000#104 = .ok (.div 0x40C00000 0x40000000) := by decide
theorem test_decode_neg : decode 0x34_3F800000_00000000_00000000#104 = .ok (.neg 0x3F800000) := by decide
theorem test_decode_floor : decode 0x40_3FF33333_00000000_00000000#104 = .ok (.floor 0x3FF33333) := by decide
theorem test_decode_ceil : decode 0x41_3F8CCCCD_00000000_00000000#104 = .ok (.ceil 0x3F8CCCCD) := by decide
theorem test_decode_round : decode 0x42_40200000_00000000_00000000#104 = .ok (.round 0x40200000) := by decide
theorem test_decode_trunc : decode 0x43_C0200000_00000000_00000000#104 = .ok (.trunc 0xC0200000) := by decide
theorem test_decode_sqrt : decode 0x50_40800000_00000000_00000000#104 = .ok (.sqrt 0x40800000) := by decide
theorem test_decode_exp : decode 0x60_3F800000_00000000_00000000#104 = .ok (.exp 0x3F800000) := by decide
theorem test_decode_log : decode 0x68_40000000_00000000_00000000#104 = .ok (.log 0x40000000) := by decide
theorem test_decode_log2 : decode 0x69_41000000_00000000_00000000#104 = .ok (.log2 0x41000000) := by decide
theorem test_decode_log10 : decode 0x6A_42C80000_00000000_00000000#104 = .ok (.log10 0x42C80000) := by decide
theorem test_decode_logb : decode 0x6B_41100000_40400000_00000000#104 = .ok (.logb 0x41100000 0x40400000) := by decide
theorem test_decode_pow : decode 0x70_40000000_40400000_00000000#104 = .ok (.pow 0x40000000 0x40400000) := by decide
theorem test_decode_sin : decode 0x80_3F9DF3B6_00000000_00000000#104 = .ok (.sin 0x3F9DF3B6) := by decide
theorem test_decode_cos : decode 0x81_3F9DF3B6_00000000_00000000#104 = .ok (.cos 0x3F9DF3B6) := by decide
theorem test_decode_tan : decode 0x82_3F9DF3B6_00000000_00000000#104 = .ok (.tan 0x3F9DF3B6) := by decide
theorem test_decode_asin : decode 0x90_3F000000_00000000_00000000#104 = .ok (.asin 0x3F000000) := by decide
theorem test_decode_acos : decode 0x91_BF800000_00000000_00000000#104 = .ok (.acos 0xBF800000) := by decide
theorem test_decode_atan : decode 0x92_7F800000_00000000_00000000#104 = .ok (.atan 0x7F800000) := by decide
theorem test_decode_atan2 : decode 0x93_3F800000_BF800000_00000000#104 = .ok (.atan2 0x3F800000 0xBF800000) := by decide
theorem test_decode_refuses_op07 : decode 0x07_00000001_00000002_00000003#104 = .error (.illegalOp 0x07) := by decide
theorem test_decode_ignores_c : decode 0x30_3F800000_40000000_DEADBEEF#104 = .ok (.add 0x3F800000 0x40000000) := by decide
theorem test_decodeTableWord_add :
    decodeTableWord 104 0x30_3F800000_40000000_00000000 = some (.add 0x3F800000 0x40000000) := by decide
theorem test_encode_fromparts :
    encode (.fromparts 1 0x80 0x490FDB) = 0x10_00000001_00000080_00490FDB#104 := by decide

/-! ## Results: a step from reset on a command word, at most two an operation -/

theorem test_raw_nan_payload : responseTo 0x00_7FC12345_00000000_00000000 = some ⟨.ok, 0x7FC12345⟩ := rfl
theorem test_dsign_minus_zero : responseTo 0x01_80000000_00000000_00000000 = some ⟨.ok, 0x00000001⟩ := rfl
theorem test_drexp_infinity : responseTo 0x02_7F800000_00000000_00000000 = some ⟨.ok, 0x000000FF⟩ := rfl
theorem test_drman_all_ones : responseTo 0x03_7FFFFFFF_00000000_00000000 = some ⟨.ok, 0x007FFFFF⟩ := rfl
theorem test_dexp_subnormal : responseTo 0x04_00000001_00000000_00000000 = some ⟨.ok, 0xFFFFFF81⟩ := rfl
theorem test_dexp_infinity : responseTo 0x04_7F800000_00000000_00000000 = some ⟨.ok, 0x00000080⟩ := rfl
theorem test_dman_negative : responseTo 0x05_C0490FDB_00000000_00000000 = some ⟨.ok, 0xFF36F025⟩ := rfl
theorem test_dman_negative_subnormal : responseTo 0x05_80000005_00000000_00000000 = some ⟨.ok, 0xFFFFFFFB⟩ := rfl
theorem test_fromparts_masks : responseTo 0x10_00000002_0000017F_00800000 = some ⟨.ok, 0x3F800000⟩ := rfl
theorem test_fromparts_pi : responseTo 0x10_00000001_00000080_00490FDB = some ⟨.ok, 0xC0490FDB⟩ := rfl
theorem test_scaleb_truncates : responseTo 0x11_3FC00000_FFFFFF6B_00000000 = some ⟨.ok, 0x00000001⟩ := rfl
theorem test_scaleb_into_subnormal : responseTo 0x11_BFFFFFFF_FFFFFF81_00000000 = some ⟨.ok, 0x807FFFFF⟩ := rfl
theorem test_normman_subnormal : responseTo 0x20_80000005_00000000_00000000 = some ⟨.ok, 0x00A00000⟩ := rfl
theorem test_normexp_smallest : responseTo 0x21_00000001_00000000_00000000 = some ⟨.ok, 0xFFFFFFEA⟩ := rfl
theorem test_normexp_zero_result : responseTo 0x21_00400000_00000000_00000000 = some ⟨.ok, 0x00000000⟩ := rfl
theorem test_add_truncates : responseTo 0x30_41200000_3DCCCCCD_00000000 = some ⟨.ok, 0x41219999⟩ := rfl
theorem test_add_at_25_steps : responseTo 0x30_3F800000_B3000000_00000000 = some ⟨.ok, 0x3F7FFFFF⟩ := rfl
theorem test_sub_minus_zeros : responseTo 0x31_80000000_80000000_00000000 = some ⟨.ok, 0x00000000⟩ := rfl
theorem test_sub_pi_halves : responseTo 0x31_40490FDB_3FC90FDB_00000000 = some ⟨.ok, 0x3FC90FDB⟩ := rfl
theorem test_mul_negative_floors : responseTo 0x32_BF800001_3F800001_00000000 = some ⟨.ok, 0xBF800003⟩ := rfl
theorem test_mul_subnormal : responseTo 0x32_1A800000_1A800000_00000000 = some ⟨.ok, 0x00000002⟩ := rfl
theorem test_div_loses_a_bit : responseTo 0x33_41A00000_40400000_00000000 = some ⟨.ok, 0x40D55554⟩ := rfl
theorem test_div_minus_one_by_zero : responseTo 0x33_BF800000_00000000_00000000 = some ⟨.ok, 0xFF800000⟩ := rfl
theorem test_neg_nan : responseTo 0x34_FFC00000_00000000_00000000 = some ⟨.ok, 0x7FC00000⟩ := rfl
theorem test_floor_minus_2_5 : responseTo 0x40_C0200000_00000000_00000000 = some ⟨.ok, 0xC0400000⟩ := rfl
theorem test_floor_negative_subnormal : responseTo 0x40_80000001_00000000_00000000 = some ⟨.ok, 0xBF800000⟩ := rfl
theorem test_ceil_minus_half : responseTo 0x41_BF000000_00000000_00000000 = some ⟨.ok, 0x80000000⟩ := rfl
theorem test_ceil_1_1 : responseTo 0x41_3F8CCCCD_00000000_00000000 = some ⟨.ok, 0x40000000⟩ := rfl
theorem test_round_2_5 : responseTo 0x42_40200000_00000000_00000000 = some ⟨.ok, 0x40400000⟩ := rfl
theorem test_round_carries : responseTo 0x42_4AFFFFFF_00000000_00000000 = some ⟨.ok, 0x4B000000⟩ := rfl
theorem test_trunc_minus_0_99 : responseTo 0x43_BF7FFFFF_00000000_00000000 = some ⟨.ok, 0x80000000⟩ := rfl
theorem test_trunc_minus_2_5 : responseTo 0x43_C0200000_00000000_00000000 = some ⟨.ok, 0xC0000000⟩ := rfl
theorem test_sqrt_two : responseTo 0x50_40000000_00000000_00000000 = some ⟨.ok, 0x3FB504F3⟩ := rfl
theorem test_sqrt_smallest : responseTo 0x50_00000001_00000000_00000000 = some ⟨.ok, 0x1A3504F3⟩ := rfl
theorem test_exp_zero : responseTo 0x60_80000000_00000000_00000000 = some ⟨.ok, 0x3F800000⟩ := rfl
theorem test_log_minus_zero : responseTo 0x68_80000000_00000000_00000000 = some ⟨.ok, 0xFF800000⟩ := rfl
theorem test_log2_negative : responseTo 0x69_BF800000_00000000_00000000 = some ⟨.ok, 0xFFC00000⟩ := rfl
theorem test_log10_negative : responseTo 0x6A_BF800000_00000000_00000000 = some ⟨.ok, 0xFFC00000⟩ := rfl
theorem test_logb_zero_by_zero : responseTo 0x6B_00000000_80000000_00000000 = some ⟨.ok, 0xFFC00000⟩ := rfl
theorem test_pow_minus_inf_odd : responseTo 0x70_FF800000_C0400000_00000000 = some ⟨.ok, 0x80000000⟩ := rfl
theorem test_sin_1_234 : responseTo 0x80_3F9DF3B6_00000000_00000000 = some ⟨.ok, 0x3F7174C0⟩ := rfl
theorem test_sin_large : responseTo 0x80_7F7FFFFF_00000000_00000000 = some ⟨.ok, 0x3F7CA3DE⟩ := by decide +kernel
theorem test_cos_pi : responseTo 0x81_40490FDB_00000000_00000000 = some ⟨.ok, 0xBF800000⟩ := rfl
theorem test_cos_minus_100 : responseTo 0x81_C2C80000_00000000_00000000 = some ⟨.ok, 0x3F5C7392⟩ := rfl
theorem test_tan_half_pi : responseTo 0x82_3FC90FDB_00000000_00000000 = some ⟨.ok, 0x7F800000⟩ := rfl
theorem test_tan_1_234 : responseTo 0x82_3F9DF3B6_00000000_00000000 = some ⟨.ok, 0x4035FF17⟩ := rfl
theorem test_asin_above_one : responseTo 0x90_3F800001_00000000_00000000 = some ⟨.ok, 0xFFC00000⟩ := rfl
theorem test_acos_minus_one : responseTo 0x91_BF800000_00000000_00000000 = some ⟨.ok, 0x40490FDB⟩ := rfl
theorem test_atan_minus_inf : responseTo 0x92_FF800000_00000000_00000000 = some ⟨.ok, 0xBFC90FDB⟩ := rfl
theorem test_atan2_minus_zero_minus_one : responseTo 0x93_80000000_BF800000_00000000 = some ⟨.ok, 0xC0490FDB⟩ := rfl

/-! The open operations under CFG_REF: the dispatch and the arithmetic under it (rules R177, R188, R209, R251, and the
examples of R185 to R187). -/

theorem test_cfgRef_exp_minus_100 : fpExp CfgRef.cfg 0xC2C80000 = 0x0000001A := rfl
theorem test_cfgRef_log_two : fpLog CfgRef.cfg 0x40000000 = 0x3F317217 := rfl
theorem test_cfgRef_log2_eight : fpLog2 CfgRef.cfg 0x41000000 = 0x403FFFFE := rfl
theorem test_cfgRef_log10_hundred : fpLog10 CfgRef.cfg 0x42C80000 = 0x40000000 := rfl
theorem test_cfgRef_logb_nine_three : fpLogb CfgRef.cfg 0x41100000 0x40400000 = 0x3FFFFFFE := rfl
theorem test_cfgRef_pow_minus_two_three : fpPow CfgRef.cfg 0xC0000000 0x40400000 = 0xC1000000 := by decide +kernel
theorem test_cfgRef_asin_half : fpAsin CfgRef.cfg 0x3F000000 = 0x3F060A94 := rfl
theorem test_cfgRef_acos_three_quarters : fpAcos CfgRef.cfg 0x3F400000 = 0x3F39051C := rfl
theorem test_cfgRef_atan_two : fpAtan CfgRef.cfg 0x40000000 = 0x3F8DB70C := rfl
theorem test_cfgRef_atan2_three_minus_four : fpAtan2 CfgRef.cfg 0x40400000 0xC0800000 = 0x401FE0BB := by decide +kernel

/-! ## The transport -/

/-- A state with one command in the queue and the given next cycles of the host. -/
def queued (w : CommandWord) (wait : Nat) (inputs : List PortInput) : State :=
  { State.reset with inflight := [⟨w, wait⟩], inputs := inputs }

/-- A cycle in which the host presents nothing and takes a response. -/
def takes : PortInput := ⟨false, false, 0, true⟩

/-- A cycle of reset, with a command presented. -/
def resets : PortInput := ⟨true, true, 0, true⟩

theorem test_illegal_status : (responseTo 0x07_00000001_00000002_00000003).map Response.st = some .illegalOp := by decide
theorem test_latency_counts_down :
    step (queued 0x00_00000005_00000000_00000000#104 2 [takes]) =
      .next { queued 0x00_00000005_00000000_00000000#104 1 [] with cycle := 1 } := rfl
theorem test_delivery_empties_the_queue :
    step { queued 0x00_00000005_00000000_00000000#104 0 [takes] with rsp := some ⟨.ok, 5⟩ } =
      .next { State.reset with cycle := 1 } := rfl
theorem test_reset_discards :
    step { queued 0x00_00000005_00000000_00000000#104 0 [resets] with rsp := some ⟨.ok, 5⟩, held := some 1 } =
      .next { State.reset with cycle := 1 } := rfl
theorem test_withdrawn_command_is_refused :
    step { State.reset with held := some 1, inputs := [takes] } = .refused .handshakeBroken := rfl
theorem test_response_word : Response.word ⟨.illegalOp, 5⟩ = 0x1_00000005#34 := by decide
theorem test_readyChoice_gap : (List.range 5).map (readyChoice (fun _ => 1)) = [false, true, false, true, false] := by
  decide

/-! ## The textual syntax (R63) and the host layer (49_host_layer.md) -/

theorem test_assemble_add :
    (⟨.mnemonic "ADD", [.hex 0x3F800000, .hex 0x40000000]⟩ : AsmLine).assemble [] =
      some 0x30_3F800000_40000000_00000000#104 := by decide +kernel
theorem test_assemble_op07 :
    (⟨.raw 0x07, [.hex 1, .hex 2, .hex 3]⟩ : AsmLine).assemble [] = some 0x07_00000001_00000002_00000003#104 := by
  decide +kernel
theorem test_assemble_op06 :
    (⟨.raw 0x06, []⟩ : AsmLine).assemble [] = some 0x06_00000000_00000000_00000000#104 := by decide +kernel
theorem test_host_int_round_trip :
    HostLayer.ofInt32 16777216 = 0x4B800000 ∧ HostLayer.toInt32 0x4B800000 = some 16777216 ∧
      HostLayer.ofInt32 (-16777216) = 0xCB800000 ∧ HostLayer.toInt32 0xCB800000 = some (-16777216) := by decide +kernel
theorem test_host_equals_nan : HostLayer.equals 0x7FC00000 0xFF800001 = true ∧ fpEq 0x7FC00000 0x7FC00000 = false := by
  decide

end Sys2Proof.Machine.Tests
end

