-- ==== Sys2Proof/Tests/Witness.lean ====
section
/-! SUPPORT. For every statement of Certificates/Slice0/Obligations.lean that has hypotheses, a concrete state and operands
that meet them: one theorem a statement, one conjunct a clause, at a boundary of the clause's range where it has one.
A statement without a witness here has no hypothesis. -/

namespace Sys2Proof.Machine.Tests

/-! ## The transport -/

/-- The command word `RAW 5`. -/
def rawFive : CommandWord := 0x00_00000005_00000000_00000000#104

/-- A command word whose `op` is in no row. -/
def opSeven : CommandWord := 0x07_00000001_00000002_00000003#104

/-- The host presents a command and takes nothing. -/
def presents (w : CommandWord) : PortInput := ⟨false, true, w, false⟩

/-- Nothing happens at the ports. -/
def quiet : PortInput := ⟨false, false, 0, false⟩

theorem answers_rawFive : Answers rawFive ⟨.ok, 5⟩ := by
  have h : decode rawFive = .ok (.raw 5) := by decide
  exact (answers_ok _ _ h _).2 rfl

/-- A queue of one command is within any capacity. -/
theorem queued_inv (w : CommandWord) (k : Nat) (q : List PortInput) : (queued w k q).Inv :=
  ⟨queueDepth_pos, by intro p hp; simp [queued] at hp⟩

theorem reset_inv : State.reset.Inv := ⟨Nat.zero_le _, by intro p hp; simp at hp⟩

/-- In some cycle the block, its queue empty, is ready. -/
theorem ready_state (w : CommandWord) :
    ∃ s : State, s.input.rst = false ∧ s.input.presented = some w ∧ s.cmdReady = true ∧ s.breaksHandshake = false := by
  obtain ⟨k, hk⟩ := readyChoice_again Config.freeReadyGap 0
  have hd := queueDepth_pos
  refine ⟨{ State.reset with inputs := [presents w], cycle := 0 + k }, rfl, rfl, ?_, rfl⟩
  simp only [State.cmdReady, hk, Bool.and_true, decide_eq_true_eq]
  exact hd

theorem witness_UnreadFieldsAreIgnored :
    (⟨"RAW", 0x00, .u⟩ : OpRow) ∈ opTable ∧ (⟨"FROMPARTS", 0x10, .t⟩ : OpRow) ∈ opTable ∧
      (⟨"ATAN2", 0x93, .b⟩ : OpRow) ∈ opTable := by decide

theorem witness_OpcodeTableSelectsTheOperation :
    decode rawFive = .ok (.raw 5) ∧ (⟨"RAW", 0x00, .u⟩ : OpRow) ∈ opTable ∧
      rawFive &&& opMask = (⟨"RAW", 0x00, .u⟩ : OpRow).matchBits := by decide

theorem witness_IllegalOpcodeAnswersIllegalOp :
    (∀ row ∈ opTable, row.op ≠ opSeven.op) ∧
      (∀ row ∈ opTable, row.op ≠ CommandWord.op 0x94_00000000_00000000_00000000#104) ∧
      (∃ s : State, s.input.rst = false ∧ s.input.presented = some opSeven ∧ s.cmdReady = true) ∧
      (queued opSeven 0 [quiet]).input.rst = false ∧ (queued opSeven 0 [quiet]).breaksHandshake = false ∧
      (queued opSeven 0 [quiet]).clockEdge.due = some opSeven := by
  obtain ⟨s, h1, h2, h3, -⟩ := ready_state opSeven
  exact ⟨by decide, by decide, ⟨s, h1, h2, h3⟩, rfl, rfl, rfl⟩

theorem witness_StepRunsTheOldestCommand :
    ((queued rawFive 0 [quiet]).input.rst = false ∧ (queued rawFive 0 [quiet]).breaksHandshake = false ∧
      (queued rawFive 0 [quiet]).clockEdge.due = some rawFive ∧ decode rawFive = .ok (.raw 5)) ∧
    decodeTableWord 104 0x00_00000005_00000000_00000000 = some (.raw 5) ∧ decodeTableWord 8 0 = some (.raw 0) ∧
    (State.reset.input.rst = false ∧ State.reset.breaksHandshake = false ∧ State.reset.clockEdge.due = none) ∧
    ((queued rawFive 1 [quiet]).clockEdge.due = none ∧ (queued rawFive 1 [quiet]).clockEdge.rsp = none ∧
      (queued rawFive 1 [quiet]).nextQueue = [⟨rawFive, 1⟩]) ∧
    ({ queued rawFive 0 [quiet] with rsp := some ⟨.ok, 5⟩ } : State).clockEdge.due = none ∧
    ({ queued rawFive 0 [quiet] with rsp := some ⟨.ok, 5⟩ } : State).clockEdge.rsp ≠ none := by
  refine ⟨⟨rfl, rfl, rfl, by decide⟩, by decide, by decide, ⟨rfl, rfl, rfl⟩, ⟨rfl, rfl, rfl⟩, rfl, ?_⟩
  have h : ({ queued rawFive 0 [quiet] with rsp := some ⟨.ok, 5⟩ } : State).clockEdge.rsp = some ⟨.ok, 5⟩ := rfl
  rw [h]
  simp

theorem witness_QueueIsFirstInFirstOut :
    (∃ s : State, s.input.rst = false ∧ s.breaksHandshake = false ∧ s.accepted = some rawFive) ∧
    ({ queued rawFive 0 [takes] with rsp := some ⟨.ok, 5⟩ } : State).input.rst = false ∧
    ({ queued rawFive 0 [takes] with rsp := some ⟨.ok, 5⟩ } : State).breaksHandshake = false ∧
    ({ queued rawFive 0 [takes] with rsp := some ⟨.ok, 5⟩ } : State).delivered = some ⟨.ok, 5⟩ := by
  obtain ⟨s, h1, h2, h3, h4⟩ := ready_state rawFive
  exact ⟨⟨s, h1, h4, by simp [State.accepted, h1, h2, h3]⟩, rfl, rfl, rfl⟩

theorem witness_PortsFollowTheHandshake :
    HostWaits 1 { queued rawFive 0 [presents opSeven, takes] with rsp := some ⟨.ok, 5⟩ } ∧
    ∃ t, Host.Core.run Sys2Proof.core 1
      ({ queued rawFive 0 [presents opSeven, takes] with rsp := some ⟨.ok, 5⟩ } : State) = .next t := by
  refine ⟨?_, ?_⟩
  · intro p hp
    simp [queued] at hp
    subst hp
    exact ⟨rfl, rfl⟩
  · exact ⟨_, run_next 0 rfl⟩

theorem witness_ResetDiscardsEverything :
    ({ queued rawFive 0 [resets] with rsp := some ⟨.ok, 5⟩ } : State).input.rst = true := rfl

theorem witness_InvariantKeptByEveryStep :
    ∃ s t : State, s.Inv ∧ step s = .next t ∧ t.rsp = some ⟨.ok, 5⟩ := by
  have h : decode rawFive = .ok (.raw 5) := by decide
  exact ⟨queued rawFive 0 [quiet], _, queued_inv _ _ _, rfl, rfl⟩

theorem witness_ResponsesComeInCommandOrder :
    (queued rawFive 0 [quiet, takes]).Inv ∧ NoResetIn 2 (queued rawFive 0 [quiet, takes]) ∧
      deliveredIn 2 (queued rawFive 0 [quiet, takes]) = [⟨.ok, 5⟩] := by
  refine ⟨queued_inv _ _ _, ?_, rfl⟩
  intro p hp
  simp [queued] at hp
  rcases hp with rfl | rfl <;> rfl

theorem witness_EveryCommandHasItsOneResponse : decode rawFive = .ok (.raw 5) ∧ Answers rawFive ⟨.ok, 5⟩ :=
  ⟨by decide, answers_rawFive⟩

theorem witness_LegalCommandsMakeFaultFreeRuns :
    (queued rawFive 0 [quiet, takes]).Inv ∧ (∀ f ∈ (queued rawFive 0 [quiet, takes]).inflight, commandLegal f.word = true) ∧
      (∀ w ∈ acceptedIn 2 (queued rawFive 0 [quiet, takes]), commandLegal w = true) ∧
      deliveredIn 2 (queued rawFive 0 [quiet, takes]) = [⟨.ok, 5⟩] := by
  refine ⟨queued_inv _ _ _, ?_, ?_, rfl⟩
  · intro f hf
    simp [queued] at hf
    subst hf
    decide
  · have h : acceptedIn 2 (queued rawFive 0 [quiet, takes]) = [] := rfl
    rw [h]
    simp

theorem witness_ResponseWordLayout :
    (⟨.ok, 5⟩ : Response).st = .ok ∧ (⟨.illegalOp, 5⟩ : Response).st = .illegalOp := ⟨rfl, rfl⟩

theorem witness_ResponseIsPresentedInFiniteTime :
    (queued rawFive 0 [quiet]).inflight = [⟨rawFive, 0⟩] ∧ (queued rawFive 0 [quiet]).rsp = none ∧
      NoResetIn 1 (queued rawFive 0 [quiet]) ∧
      (∃ t, Host.Core.run Sys2Proof.core 1 (queued rawFive 0 [quiet]) = .next t) ∧
      (∃ t, Host.Core.run Sys2Proof.core 2 (queued rawFive 1 [quiet, quiet]) = .next t) := by
  have h1 : ∃ t, step (queued rawFive 0 [quiet]) = .next t := ⟨_, rfl⟩
  obtain ⟨t, ht⟩ := h1
  refine ⟨rfl, rfl, ?_, ⟨t, run_next 0 ht⟩, ?_⟩
  · intro p hp
    simp [queued] at hp
    subst hp
    rfl
  · have h2 : ∃ u, step (queued rawFive 1 [quiet, quiet]) = .next u ∧ ∃ v, step u = .next v := ⟨_, rfl, _, rfl⟩
    obtain ⟨u, hu, v, hv⟩ := h2
    exact ⟨v, by rw [run_next 1 hu, run_next 0 hv]; rfl⟩

theorem witness_CommandPortOpensInFiniteTime :
    State.reset.inflight.length < queueDepth ∧
      ∃ t, Host.Core.run Sys2Proof.core 0 ({ State.reset with inputs := [quiet] } : State) = .next t :=
  ⟨queueDepth_pos, _, rfl⟩

/-! ## The units -/

theorem witness_NormalizedSignificandAndExponent :
    isZero 0x80000000 = true ∧ expo 0xFF800000 = 255 ∧ expo 0x7F800001 = 255 ∧
    (isFinite 0x00000001 = true ∧ isZero 0x00000001 = false) ∧
    (isFinite 0x7F7FFFFF = true ∧ isZero 0x7F7FFFFF = false ∧ expo 0x7F7FFFFF ≠ 0) := by decide

theorem witness_ScalebIsExactScaling :
    isNan 0x7F800001 = true ∧ isInf 0xFF800000 = true ∧ isZero 0x80000000 = true ∧
    (isFinite 0x7F7FFFFF = true ∧ isZero 0x7F7FFFFF = false ∧
      (2 : Rat) ^ 128 ≤ |val 0x7F000000| * (2 : Rat) ^ (0x00000001#32).toInt) ∧
    ((2 : Rat) ^ (-126 : Int) ≤ |val 0x01000000| * (2 : Rat) ^ (0xFFFFFFFF#32).toInt ∧
      |val 0x01000000| * (2 : Rat) ^ (0xFFFFFFFF#32).toInt < 2 ^ 128) ∧
    |val 0x00800000| * (2 : Rat) ^ (0xFFFFFFFF#32).toInt < (2 : Rat) ^ (-126 : Int) := by
  have h1 : units 0x7F000000 = 2 ^ 127 * 2 ^ 149 := by decide +kernel
  have h2 : units 0x01000000 = 2 ^ 24 := by decide +kernel
  have h3 : units 0x00800000 = 2 ^ 23 := by decide +kernel
  have h4 : (0x00000001#32).toInt = 1 := by decide
  have h5 : (0xFFFFFFFF#32).toInt = -1 := by decide
  refine ⟨by decide, by decide, by decide, ⟨by decide, by decide, ?_⟩, ⟨?_, ?_⟩, ?_⟩
  · rw [val, h1, h4]; norm_num
  · rw [val, h2, h5]; norm_num
  · rw [val, h2, h5]; norm_num
  · rw [val, h3, h5]; norm_num

theorem witness_AddSpecialOperands :
    isNan 0x7F800001 = true ∧ (isInf 0xFF800000 = true ∧ isFinite 0x7F7FFFFF = true) ∧ isInf 0x7F800000 = true ∧
    (isFinite 0x3F800000 = true ∧ isFinite 0xB2800000 = true ∧ expo 0xB2800000 + 25 < expo 0x3F800000) ∧
    ¬ expo 0xB3000000 + 25 < expo 0x3F800000 := by decide

theorem witness_ZeroSumsArePlusZero :
    (isFinite 0x80000000 = true ∧ val 0x80000000 + val 0x80000000 = 0) ∧
    (isFinite 0x7F7FFFFF = true ∧ isFinite 0xFF7FFFFF = true ∧ val 0x7F7FFFFF + val 0xFF7FFFFF = 0) := by
  have h0 : units 0x80000000 = 0 := by decide
  have h1 : units 0xFF7FFFFF = -units 0x7F7FFFFF := by decide +kernel
  refine ⟨⟨by decide, ?_⟩, by decide, by decide, ?_⟩
  · rw [val, h0]; norm_num
  · rw [val, val, h1]; push_cast; ring

theorem witness_AddWithinOneUlp :
    (isFinite 0x41200000 = true ∧ isFinite 0x3DCCCCCD = true ∧ isFinite (fpAdd 0x41200000 0x3DCCCCCD) = true) ∧
    expo (fpAdd 0x00000003 0x80000005) = 0 ∧
    (isFinite 0x7F7FFFFF = true ∧ isInf (fpAdd 0x7F7FFFFF 0x7F7FFFFF) = true ∧
      (0 : Rat) ≤ val 0x7F7FFFFF + val 0x7F7FFFFF) ∧
    (isFinite 0xFF7FFFFF = true ∧ isFinite 0xF37C0001 = true ∧ isInf (fpAdd 0xFF7FFFFF 0xF37C0001) = true ∧
      val 0xFF7FFFFF + val 0xF37C0001 < 0) ∧
    (isFinite 0xF37C0000 = true ∧ isInf (fpAdd 0xFF7FFFFF 0xF37C0000) = false ∧ val 0xFF7FFFFF + val 0xF37C0000 < 0) := by
  have h1 : units 0x7F7FFFFF = (2 ^ 24 - 1) * 2 ^ 253 := by decide +kernel
  have h2 : units 0xFF7FFFFF = -((2 ^ 24 - 1) * 2 ^ 253) := by decide +kernel
  have h3 : units 0xF37C0001 = -((2 ^ 24 - 2 ^ 18 + 1) * 2 ^ 229) := by decide +kernel
  have h4 : units 0xF37C0000 = -((2 ^ 24 - 2 ^ 18) * 2 ^ 229) := by decide +kernel
  refine ⟨by decide +kernel, by decide +kernel, ⟨by decide, by decide +kernel, ?_⟩,
    ⟨by decide, by decide, by decide +kernel, ?_⟩, by decide, by decide +kernel, ?_⟩
  · rw [val, h1]; norm_num
  · rw [val, val, h2, h3]; norm_num
  · rw [val, val, h2, h4]; norm_num

theorem witness_AddExactWhenRepresentable :
    isFinite 0x3F800000 = true ∧ isFinite 0x3C800000 = true ∧ isFinite 0x3F820000 = true ∧
    max (expo 0x3F800000) 1 ≤ max (expo 0x3C800000) 1 + 6 ∧ max (expo 0x3C800000) 1 ≤ max (expo 0x3F800000) 1 + 6 ∧
    val 0x3F820000 = val 0x3F800000 + val 0x3C800000 ∧ val 0x3F820000 ≠ 0 := by
  have h1 : units 0x3F820000 = units 0x3F800000 + units 0x3C800000 := by decide +kernel
  have h2 : units 0x3F820000 ≠ 0 := by decide +kernel
  refine ⟨by decide, by decide, by decide, by decide, by decide, ?_, ?_⟩
  · rw [val, val, val, h1]; push_cast; ring
  · rw [val]; exact div_ne_zero (by exact_mod_cast h2) (by norm_num)

theorem witness_NegFlipsTheSign : isFinite 0x00000000 = true := by decide

theorem witness_MulSpecialOperands :
    isNan 0x7F800001 = true ∧ (isInf 0x7F800000 = true ∧ isZero 0x80000000 = true) ∧
    (isInf 0xFF800000 = true ∧ isNan 0x00000001 = false ∧ isZero 0x00000001 = false) ∧
    (isZero 0x00000000 = true ∧ isFinite 0xFF7FFFFF = true) := by decide

/-- One conjunct a clause: the hypotheses; a normal and a zero result; a positive product; a negative one on either side of
`2^47`; an exact one; a positive and a negative one at the end of the range. -/
theorem witness_MulWithinOneUlp :
    (isFinite 0x3F800001 = true ∧ isZero 0x3F800001 = false ∧ isFinite 0xBF800001 = true ∧ isZero 0xBF800001 = false ∧
      Gives (.normman 0x3F800001) 0x00800001 ∧ Gives (.normman 0xBF800001) 0x00800001) ∧
    (isFinite (fpMul 0xBF800001 0x3F800001) = true ∧ expo (fpMul 0xBF800001 0x3F800001) ≠ 0) ∧
    (isFinite 0x80000001 = true ∧ isZero 0x80000001 = false ∧ isFinite (fpMul 0x80000001 0x3F000000) = true ∧
      expo (fpMul 0x80000001 0x3F000000) = 0) ∧
    0 < val 0x3F800001 * val 0x3F800001 ∧
    (val 0xBF800001 * val 0x3F800001 < 0 ∧ (0x00800001#32 : Word).toNat * (0x00800001#32 : Word).toNat < 2 ^ 47) ∧
    (isFinite (fpMul 0xBFFFFFFF 0x3FFFFFFF) = true ∧ expo (fpMul 0xBFFFFFFF 0x3FFFFFFF) ≠ 0 ∧
      val 0xBFFFFFFF * val 0x3FFFFFFF < 0 ∧ Gives (.normman 0xBFFFFFFF) 0x00FFFFFF ∧
      2 ^ 47 ≤ (0x00FFFFFF#32 : Word).toNat * (0x00FFFFFF#32 : Word).toNat) ∧
    (isFinite 0x40100000 = true ∧ expo 0x40100000 ≠ 0 ∧ val 0x40100000 = val 0x3FC00000 * val 0x3FC00000) ∧
    (isInf (fpMul 0x7F7FFFFF 0x40000000) = true ∧ 0 < val 0x7F7FFFFF * val 0x40000000) ∧
    (isInf (fpMul 0xFF7FFFFF 0x3F800001) = true ∧ isInf (fpMul 0xFF7FFFFF 0x3F800000) = false ∧
      val 0xFF7FFFFF * val 0x3F800001 < 0) := by
  have h1 : units 0x3F800001 = 2 ^ 149 + 2 ^ 126 := by decide +kernel
  have h2 : units 0x40100000 = 9 * 2 ^ 147 := by decide +kernel
  have h3 : units 0x3FC00000 = 3 * 2 ^ 148 := by decide +kernel
  have h4 : units 0xBF800001 = -(2 ^ 149 + 2 ^ 126) := by decide +kernel
  have h5 : units 0xBFFFFFFF = -((2 ^ 24 - 1) * 2 ^ 126) := by decide +kernel
  have h6 : units 0x3FFFFFFF = (2 ^ 24 - 1) * 2 ^ 126 := by decide +kernel
  have h7 : units 0x7F7FFFFF = (2 ^ 24 - 1) * 2 ^ 253 := by decide +kernel
  have h8 : units 0x40000000 = 2 ^ 150 := by decide +kernel
  have h9 : units 0xFF7FFFFF = -((2 ^ 24 - 1) * 2 ^ 253) := by decide +kernel
  refine ⟨⟨by decide, by decide, by decide, by decide, fun _ => rfl, fun _ => rfl⟩, by decide +kernel, by decide +kernel,
    ?_, ⟨?_, by decide⟩, ⟨by decide +kernel, by decide +kernel, ?_, fun _ => rfl, by decide⟩, ⟨by decide, by decide, ?_⟩,
    ⟨by decide +kernel, ?_⟩, by decide +kernel, by decide +kernel, ?_⟩
  · rw [val, h1]; norm_num
  · rw [val, val, h4, h1]; norm_num
  · rw [val, val, h5, h6]; norm_num
  · rw [val, val, h2, h3]; norm_num
  · rw [val, val, h7, h8]; norm_num
  · rw [val, val, h9, h1]; norm_num

theorem witness_OneIsNeutral :
    isNan 0xFF800000 = false ∧ (isFinite 0x00000001 = true ∧ isZero 0x00000001 = false) := by decide

theorem witness_DivSpecialOperands :
    isNan 0x7F800001 = true ∧ (isInf 0x7F800000 = true ∧ isInf 0xFF800000 = true) ∧
    (isInf 0x7F800000 = true ∧ isFinite 0x80000000 = true) ∧ (isFinite 0x7F7FFFFF = true ∧ isInf 0xFF800000 = true) ∧
    (isZero 0x00000000 = true ∧ isZero 0x80000000 = true) ∧
    (isFinite 0x00000001 = true ∧ isZero 0x00000001 = false ∧ isZero 0x80000000 = true) ∧
    (isZero 0x80000000 = true ∧ isFinite 0x7F7FFFFF = true ∧ isZero 0x7F7FFFFF = false) := by decide

theorem witness_DivSignRule :
    isFinite 0x00000001 = true ∧ isZero 0x00000001 = false ∧ isFinite 0xFF7FFFFF = true ∧ isZero 0xFF7FFFFF = false := by
  decide

/-- The hypotheses, with the larger significand the divisor's (20/3) and the two equal (6/3); a normal result of the first; an
exact quotient with the significands equal (6/3) and with the dividend's the smaller (9/3); an overflow and its neighbour. -/
theorem witness_DivTruncates :
    (isFinite 0x41A00000 = true ∧ isZero 0x41A00000 = false ∧ isFinite 0x40400000 = true ∧ isZero 0x40400000 = false) ∧
    Gives (.normman 0x41A00000) 0x00A00000 ∧ Gives (.normman 0x40400000) 0x00C00000 ∧
    Gives (.normman 0x40C00000) 0x00C00000 ∧
    (isFinite (fpDiv 0x41A00000 0x40400000) = true ∧ expo (fpDiv 0x41A00000 0x40400000) ≠ 0) ∧
    (isFinite 0x40000000 = true ∧ expo 0x40000000 ≠ 0 ∧ val 0x40000000 = val 0x40C00000 / val 0x40400000) ∧
    (Gives (.normman 0x41100000) 0x00900000 ∧ isFinite 0x40400000 = true ∧ expo 0x40400000 ≠ 0 ∧
      val 0x40400000 = val 0x41100000 / val 0x40400000 ∧ (0x40400000#32 : Word).getLsbD 0 = false) ∧
    (isInf (fpDiv 0x7F7FFFFF 0x3F7FFFFF) = true ∧ isInf (fpDiv 0x7F7FFFFF 0x3F800000) = false) := by
  have h1 : units 0x40000000 = 2 * 2 ^ 149 := by decide +kernel
  have h2 : units 0x40C00000 = 6 * 2 ^ 149 := by decide +kernel
  have h3 : units 0x40400000 = 3 * 2 ^ 149 := by decide +kernel
  have h4 : units 0x41100000 = 9 * 2 ^ 149 := by decide +kernel
  refine ⟨by decide, fun _ => rfl, fun _ => rfl, fun _ => rfl, by decide +kernel, ⟨by decide, by decide, ?_⟩,
    ⟨fun _ => rfl, by decide, by decide, ?_, by decide⟩, by decide +kernel⟩
  · rw [val, val, val, h1, h2, h3]; norm_num
  · rw [val, val, h4, h3]; norm_num

/-- FLOOR, CEIL, ROUND and TRUNC have the same hypotheses. -/
theorem witness_FloorCeilRoundTrunc :
    isNan 0x7F800001 = true ∧ isInf 0xFF800000 = true ∧ isFinite 0x80000001 = true ∧ isFinite 0x4AFFFFFF = true ∧
      isNan 0xFF800000 = false := by decide

theorem witness_SqrtSpecialOperands :
    isNan 0xFFFFFFFF = true ∧ isZero 0x80000000 = true ∧ (isZero 0x80000001 = false ∧ sgn 0x80000001 = true) := by decide

theorem witness_SqrtIsCorrectlyRounded :
    (isFinite 0x00000001 = true ∧ isZero 0x00000001 = false ∧ sgn 0x00000001 = false) ∧
    (isFinite 0x7F7FFFFF = true ∧ isZero 0x7F7FFFFF = false ∧ sgn 0x7F7FFFFF = false) ∧
    (isFinite 0xBF800000 = true ∧ (0xBF800000#32 : Word) ≠ 0x3F800000) := by decide

/-! ## The open operations -/

/-- Whatever the configuration, the threshold words of a legalised record lie in their ranges. -/
theorem legalise_thresholds (c : Cfg) :
    (Cfg.legalise c).expOvfThr ≤ 0x42B17218#32 ∧ Pat.one < (Cfg.legalise c).expOvfThr ∧
      Pat.one < (Cfg.legalise c).expUdfThr ∧ (Cfg.legalise c).expUdfThr < Pat.pinf := by
  unfold Cfg.legalise
  dsimp only
  split
  · next h =>
    simp [Cfg.ovfLegal] at h
    split
    · next h' => simp [Cfg.udfLegal] at h'; exact ⟨h.2, h.1, h'.1, h'.2⟩
    · exact ⟨h.2, h.1, by decide, by decide⟩
  · split
    · next h' => simp [Cfg.udfLegal] at h'; exact ⟨by decide, by decide, h'.1, h'.2⟩
    · decide

theorem witness_ExpDispatch :
    isNan 0x7F800001 = true ∧ isZero 0x80000000 = true ∧
    (isNan 0x42B17218 = false ∧ sgn 0x42B17218 = false ∧ Config.cfg.expOvfThr ≤ 0x42B17218#32) ∧
    (isNan 0xFF800000 = false ∧ sgn 0xFF800000 = true ∧ Config.cfg.expUdfThr ≤ fabs 0xFF800000#32) ∧
    Cfg.expDomain Config.cfg 0x3F800000#32 ∧ Cfg.expDomain Config.cfg 0x00000001#32 ∧
    Cfg.expDomain Config.cfg 0xBF800000#32 := by
  obtain ⟨h1, h2, h3, h4⟩ := legalise_thresholds Config.freeCfg
  have g2 : (0x3F800000#32 : Word) < Config.cfg.expOvfThr := h2
  have g3 : (0x3F800000#32 : Word) < Config.cfg.expUdfThr := h3
  have f1 : fabs 0xFF800000#32 = 0x7F800000#32 := by decide
  have f2 : fabs 0xBF800000#32 = 0x3F800000#32 := by decide
  refine ⟨by decide, by decide, ⟨by decide, by decide, h1⟩, ⟨by decide, by decide, ?_⟩, ?_, ?_, ?_⟩
  · rw [f1]; exact BitVec.le_of_lt h4
  · exact ⟨by decide, by decide, h2⟩
  · refine ⟨by decide, by decide, ?_⟩
    show (0x00000001#32 : Word) < Config.cfg.expOvfThr
    exact BitVec.lt_trans (by decide) g2
  · refine ⟨by decide, by decide, ?_⟩
    show fabs 0xBF800000#32 < Config.cfg.expUdfThr
    rw [f2]; exact g3

/-- A small legal configuration. -/
def tinyCfg : Cfg where
  depth := 1
  expOvfThr := 0x42B17218
  expUdfThr := 0x42CFF1B5
  expCore _ := 0x402DF854
  logCore a := if a < Pat.half then Pat.minusOne else if a = Pat.eight then Pat.three else Pat.one
  powCore _ _ := Pat.eight
  atanCore a := signBit a ||| 0
  asinCore a := signBit a ||| 0
  acosCore _ := 0
  atan2Core y _ := signBit y ||| 0
  hostByteOrder := .big

theorem signBit_or_zero (a bound : Word) :
    isNan (signBit a ||| 0) = false ∧ sgn (signBit a ||| 0) = sgn a ∧ fabs (signBit a ||| 0) ≤ bound := by
  have h1 := sgn_signBit_or a 0 (by decide)
  have h2 := fabs_signBit_or a 0 (by decide)
  refine ⟨?_, h1, by rw [h2]; exact Nat.zero_le _⟩
  rw [← isNan_fabs, h2]
  decide

theorem witness_LegaliseKeepsLegalConfigurations : Cfg.Legal tinyCfg where
  depth := le_refl _
  ovf := by decide
  udf := by decide
  expCore _ _ := show isNan (0x402DF854 : Word) = false ∧ sgn (0x402DF854 : Word) = false by decide
  logFinite a _ := by
    show isFinite (if a < Pat.half then Pat.minusOne else if a = Pat.eight then Pat.three else Pat.one) = true
    split
    · decide
    · split <;> decide
  logNegative a _ h := by
    have h' : tinyCfg.logCore a = Pat.minusOne := if_pos h
    rw [h']
    decide
  logPositive a _ h := by
    have h1 : ¬ a < Pat.half := by
      intro h2
      have h3 : a.toNat < Pat.half.toNat := h2
      have h4 : Pat.two.toNat ≤ a.toNat := h
      have h5 : Pat.half.toNat < Pat.two.toNat := by decide
      omega
    have h' : tinyCfg.logCore a = if a = Pat.eight then Pat.three else Pat.one := if_neg h1
    rw [h']
    split <;> decide
  logExpOne := by decide +kernel
  logEight := by decide +kernel
  powCore _ _ _ := show isNan Pat.eight = false ∧ sgn Pat.eight = false by decide
  powTwoThree := rfl
  atanCore a _ _ := signBit_or_zero a _
  asinCore a _ _ := signBit_or_zero a _
  acosCore _ _ := show isNan (0 : Word) = false ∧ sgn (0 : Word) = false ∧ (0 : Word) ≤ Pat.pi by decide
  atan2Core y _ _ _ _ _ := signBit_or_zero y _

/-- The domain of every core holds a word, at its smallest and its largest. -/
theorem witness_LegaliseKeepsLegalConfigurations_domains :
    Cfg.expDomain tinyCfg 0x42B17217 ∧ Cfg.expDomain tinyCfg 0xC2CFF1B4 ∧ logDomain 0x00000001 ∧ logDomain 0x7F7FFFFF ∧
    powDomain 0x3F7FFFFF 0x80000001 ∧ (isFinite 0x80000001 = true ∧ isZero 0x80000001 = false) ∧
    (isZero 0xBF7FFFFF = false ∧ fabs 0xBF7FFFFF < Pat.one) ∧ fabs 0x80000000 < Pat.one := by
  simp only [Cfg.expDomain, logDomain, powDomain]
  decide

theorem witness_LogDispatch :
    isNan 0x7F800001 = true ∧ isZero 0x80000000 = true ∧ (isZero 0x80000001 = false ∧ sgn 0x80000001 = true) ∧
    (logDomain 0x00000001 ∧ (0x00000001#32 : Word) < Pat.half) ∧ (logDomain 0x3EFFFFFF ∧ (0x3EFFFFFF#32 : Word) < Pat.half) ∧
    (logDomain 0x40000000 ∧ Pat.two ≤ 0x40000000#32) ∧ logDomain 0x3F000000 := by
  simp only [logDomain]
  decide

/-- Whatever the configuration, `log_core(2)` is not a zero. -/
theorem legalLogCore_two (e1 : Word) (core : Word → Word) : isZero (legalLogCore e1 core Pat.two) = false := by
  have h2 : ¬ Pat.two < Pat.half := by decide
  have hp : isZero (logPoint e1 core Pat.two) = false := by
    unfold logPoint
    split
    · next h =>
      unfold logPointLegal at h
      simp [h2] at h
      simpa using h.1.2.2
    · decide
  unfold legalLogCore
  split
  · unfold logStandIn
    split
    · decide
    · decide
  · exact hp

theorem witness_LogbSpecialPairs :
    isNan 0x7F800001 = true ∧ (isZero 0x80000001 = false ∧ sgn 0x80000001 = true) ∧ isZero 0x80000000 = true ∧
    (logDomain Pat.two ∧ ∃ l, Gives (.log Pat.two) l ∧ isZero l = false) ∧ (logDomain 0x40000000 ∧ Pat.two ≤ 0x40000000#32) ∧
    (logDomain 0x3EFFFFFF ∧ (0x3EFFFFFF#32 : Word) < Pat.half) ∧ isZero 0x00000000 = true := by
  have hd : logDomain Pat.two ∧ logDomain 0x40000000 ∧ logDomain 0x3EFFFFFF := by
    simp only [logDomain]
    decide
  refine ⟨by decide, by decide, by decide, ⟨hd.1, Config.cfg.logCore Pat.two, fun _ => rfl, ?_⟩, ⟨hd.2.1, by decide⟩,
    ⟨hd.2.2, by decide⟩, by decide⟩
  exact legalLogCore_two _ _

theorem witness_PowSpecialPairs :
    isZero 0x80000000 = true ∧ (isNan 0x7F800001 = true ∧ isZero 0x00000001 = false) ∧
    ((0x3F800001#32 : Word) ≠ Pat.one ∧ isNan 0xFFFFFFFF = true) ∧ isInf 0xFF800000 = true ∧
    (isNan 0xFF800000 = false ∧ Pat.one < fabs 0xFF800000#32) ∧ fabs 0x80000000#32 < Pat.one ∧
    (isFinite 0x4B7FFFFF = true ∧ isZero 0x4B7FFFFF = false ∧ yclass 0x4B7FFFFF = .odd) ∧
    (isFinite 0x4B800000 = true ∧ isZero 0x4B800000 = false ∧ yclass 0x4B800000 = .even) ∧
    (isFinite 0x80000001 = true ∧ isZero 0x80000001 = false ∧ yclass 0x80000001 = .nonint) ∧
    (isFinite 0xFF7FFFFF = true ∧ isZero 0xFF7FFFFF = false ∧ sgn 0xFF7FFFFF = true) ∧
    (logDomain (fabs 0x80000001) ∧ sgn 0x80000001 = true) ∧ logDomain 0x7F7FFFFF := by
  simp only [logDomain]
  decide +kernel

theorem witness_YclassIsParityOfTheValue :
    (isFinite 0x3F800000 = true ∧ isZero 0x3F800000 = false ∧ yclass 0x3F800000 = .odd) ∧ yclass 0x4B800000 = .even ∧
      yclass 0x3F7FFFFF = .nonint := by decide +kernel

/-! ## Trigonometric units and the whole block -/

theorem witness_SinIsReducedBhaskara :
    isNan 0x7F800001 = true ∧ isInf 0xFF800000 = true ∧ isFinite 0x7F7FFFFF = true ∧ isFinite 0x80000001 = true := by decide

/-- The reducer and the finiteness of sine and cosine have one hypothesis. -/
theorem witness_ReducerAndFiniteness : isFinite 0x7F7FFFFF = true ∧ isFinite 0x80000000 = true := by decide

theorem witness_LargeOperandCosineIsSine :
    (isFinite 0x4C800000 = true ∧ 153 ≤ expo 0x4C800000) ∧ (isFinite 0xFF7FFFFF = true ∧ 153 ≤ expo 0xFF7FFFFF) := by decide

theorem witness_InverseTrigonometricResults :
    isNan 0x7F800001 = true ∧ isInf 0xFF800000 = true ∧ isZero 0x80000000 = true ∧ Pat.one < fabs 0xBF800001#32 ∧
      (isFinite 0x80000001 = true ∧ isZero 0x80000001 = false) ∧ (isZero 0xBF7FFFFF = false ∧ fabs 0xBF7FFFFF#32 < Pat.one) ∧
      fabs 0x80000000#32 < Pat.one ∧ isNan 0xFF800000 = false ∧ fabs 0xBF800000#32 ≤ Pat.one := by decide

theorem witness_Atan2SpecialPairs :
    isNan 0x7F800001 = true ∧ (isZero 0x80000000 = true ∧ isNan 0x7F800000 = false ∧ sgn 0x7F800000 = false) ∧
    (isNan 0x80000000 = false ∧ sgn 0x80000000 = true) ∧ (isNan 0xFF800000 = false ∧ isZero 0xFF800000 = false) ∧
    isInf 0xFF800000 = true ∧ (isFinite 0x80000001 = true ∧ isZero 0x80000001 = false) ∧
    (isFinite 0x7F7FFFFF = true ∧ isZero 0x7F7FFFFF = false) := by decide

theorem witness_ComputedNansAreCanonical :
    canonicalNanOp (.add Pat.pinf Pat.ninf) = true ∧ Gives (.add Pat.pinf Pat.ninf) 0xFFC00000 ∧
      isNan 0xFFC00000 = true ∧ isNan 0x7F800001 = true := ⟨rfl, fun _ => rfl, by decide, by decide⟩

end Sys2Proof.Machine.Tests
end

/-! PROOFS of the scope family (00_scope.md): every command has its one response, the configuration meets its
contracts, and no legal configuration is shut out. -/

namespace Sys2Proof.Machine

/-- Settles O14: each operation answers its `valueOf`, from every state. -/
theorem everyCommandHasItsOneResponse : Obligations.EveryCommandHasItsOneResponse := by
  unfold Obligations.EveryCommandHasItsOneResponse
  exact ⟨fun i => ⟨valueOf i, (gives_iff i _).2 rfl⟩, fun w i h => ⟨valueOf i, answers_ok w i h⟩⟩

/-! ## Where the cores are called -/

theorem ne_of_expo_ne {r q : Word} (h : expo r ≠ expo q) : r ≠ q := fun he => h (he ▸ rfl)

/-- A pattern with sign 0, an infinite exponent field and no NaN is `+inf`. -/
theorem eq_pinf_of_not_finite {r : Word} (hn : isNan r = false) (hs : sgn r = false) (hf : isFinite r = false) :
    r = Pat.pinf := by
  have he : expo r = 255 := by simpa [isFinite] using hf
  have hm : mant r = 0 := by simpa [isNan, he] using hn
  exact eq_of_fields hs he hm

theorem fpLog_of_logDomain (c : Cfg) {a : Word} (h : logDomain a) : fpLog c a = c.logCore a := by
  obtain ⟨hf, hz, hs, h1⟩ := h
  have he := (isFinite_iff a).1 hf
  have hn : isNan a = false := by simp [isNan, he]
  have hi : a ≠ Pat.pinf := ne_of_expo_ne he
  simp [fpLog, hn, hz, hs, hi, h1]

theorem logDomain_two : logDomain Pat.two := ⟨by decide, by decide, by decide, by decide⟩

theorem logDomain_eight : logDomain Pat.eight := ⟨by decide, by decide, by decide, by decide⟩

/-- The core is called with 1, which lies below every legal threshold. -/
theorem expDomain_one {c : Cfg} (h : Pat.one < c.expOvfThr) : Cfg.expDomain c Pat.one :=
  ⟨by decide, by decide, h⟩

theorem fpExp_of_expDomain (c : Cfg) {a : Word} (h : Cfg.expDomain c a) : fpExp c a = c.expCore a := by
  obtain ⟨hf, hz, ht⟩ := h
  have he := (isFinite_iff a).1 hf
  have hn : isNan a = false := by simp [isNan, he]
  have hp : a ≠ Pat.pinf := ne_of_expo_ne he
  have hm : a ≠ Pat.ninf := ne_of_expo_ne he
  cases hs : sgn a
  · have ht' : ¬ c.expOvfThr ≤ a := by simpa [hs, BitVec.not_le] using ht
    simp [fpExp, hn, hp, hm, hz, hs, ht']
  · have ht' : ¬ c.expUdfThr ≤ fabs a := by simpa [hs, BitVec.not_le] using ht
    simp [fpExp, hn, hp, hm, hz, hs, ht']

/-! ## `exp_core` held to its contract (R175) -/

theorem expOneLegal_iff (r : Word) :
    expOneLegal r = true ↔ isFinite r = true ∧ sgn r = false ∧ Pat.half ≤ r ∧ r ≠ Pat.one := by
  simp [expOneLegal, and_assoc]

theorem isZero_of_half_le {r : Word} (h : Pat.half ≤ r) (hs : sgn r = false) : isZero r = false := by
  rw [Bool.eq_false_iff, ne_eq, isZero_iff]
  rintro ⟨he, hm⟩
  have hr : r = Pat.zero := eq_of_fields hs he hm
  subst hr
  exact absurd h (by decide)

/-- A legal `exp_core(ONE)` is an operand of `log_core`. -/
theorem logDomain_of_expOneLegal {r : Word} (h : expOneLegal r = true) : logDomain r := by
  obtain ⟨hf, hs, hh, h1⟩ := (expOneLegal_iff r).1 h
  exact ⟨hf, isZero_of_half_le hh hs, hs, h1⟩

theorem legalExpCore_spec (core : Word → Word) (a : Word) :
    isNan (legalExpCore core a) = false ∧ sgn (legalExpCore core a) = false := by
  unfold legalExpCore
  dsimp only
  split
  · decide
  · exact positiveOrInf_spec _

theorem expOneLegal_legalExpCore_one (core : Word → Word) : expOneLegal (legalExpCore core Pat.one) = true := by
  unfold legalExpCore
  dsimp only
  split
  · decide
  · next h => simpa using h

theorem legalExpCore_eq {core : Word → Word} {a : Word} (hn : isNan (core a) = false) (hs : sgn (core a) = false)
    (h1 : a = Pat.one → expOneLegal (core a) = true) : legalExpCore core a = core a := by
  unfold legalExpCore
  rw [positiveOrInf_eq _ hn hs]
  exact if_neg fun ⟨ha, hl⟩ => by simp [h1 ha] at hl

/-! ## `log_core` held to its contract (R183) -/

theorem logPointLegal_iff (e1 a r : Word) :
    logPointLegal e1 a r = true ↔
      isFinite r = true ∧ (a < Pat.half → sgn r = true ∧ isZero r = false) ∧
      (Pat.two ≤ a → sgn r = false ∧ isZero r = false) ∧ (a = e1 → near r 1 = true) := by
  simp [logPointLegal, and_assoc, imp_iff_not_or]

/-- Below 0.5 a word is not at or above 2, nor is it a legal `exp_core(ONE)`. -/
theorem not_le_of_lt_half {a b : Word} (h : a < Pat.half) (hb : Pat.half ≤ b) : ¬ b ≤ a :=
  BitVec.not_le.2 (Nat.lt_of_lt_of_le (m := Pat.half.toNat) h hb)

theorem logPointLegal_logPoint {e1 : Word} (he : Pat.half ≤ e1) (core : Word → Word) (a : Word) :
    logPointLegal e1 a (logPoint e1 core a) = true := by
  unfold logPoint
  split
  · assumption
  · split
    · next h =>
      have h2 : ¬ Pat.two ≤ a := not_le_of_lt_half h (by decide)
      have h1 : a ≠ e1 := fun h1 => not_le_of_lt_half h he (h1 ▸ BitVec.le_refl _)
      exact (logPointLegal_iff ..).2 ⟨by decide, fun _ => by decide, fun h => absurd h h2, fun h => absurd h h1⟩
    · next h =>
      exact (logPointLegal_iff ..).2
        ⟨by decide, fun h' => absurd h' h, fun _ => by decide, fun _ => by decide +kernel⟩

theorem logPointLegal_logStandIn (e1 : Word) {a : Word} (ha : a = Pat.two ∨ a = Pat.eight) :
    logPointLegal e1 a (logStandIn e1 a) = true := by
  unfold logStandIn
  by_cases he : e1 = Pat.eight
  · subst he
    rcases ha with rfl | rfl <;> decide +kernel
  · rcases ha with rfl | rfl
    · rw [if_neg he]
      exact (logPointLegal_iff ..).2 ⟨by decide, by decide, fun _ => by decide, fun _ => by decide +kernel⟩
    · rw [if_neg he]
      exact (logPointLegal_iff ..).2 ⟨by decide, by decide, fun _ => by decide, fun h => absurd h.symm he⟩

/-- Whatever the record, the block's `log_core` meets items 2 to 4 of R183. -/
theorem logPointLegal_legalLogCore {e1 : Word} (he : Pat.half ≤ e1) (core : Word → Word) (a : Word) :
    logPointLegal e1 a (legalLogCore e1 core a) = true := by
  unfold legalLogCore
  split
  · next h => exact logPointLegal_logStandIn e1 h.1
  · exact logPointLegal_logPoint he core a

/-- Whatever the record, the block's `log_core` meets item 5 of R183. -/
theorem near_legalLogCore (e1 : Word) (core : Word → Word) :
    near (fpDiv (legalLogCore e1 core Pat.eight) (legalLogCore e1 core Pat.two)) 3 = true := by
  unfold legalLogCore
  cases h : near (fpDiv (logPoint e1 core Pat.eight) (logPoint e1 core Pat.two)) 3
  · simp only [true_or, or_true, and_self, if_true]
    unfold logStandIn
    by_cases he : e1 = Pat.eight
    · simp only [he, if_true]
      decide +kernel
    · simp only [he, if_false]
      decide +kernel
  · simpa using h

theorem legalLogCore_eq {e1 : Word} {core : Word → Word} {a : Word}
    (h : ∀ b, logDomain b → logPointLegal e1 b (core b) = true)
    (h3 : near (fpDiv (core Pat.eight) (core Pat.two)) 3 = true) (ha : logDomain a) :
    legalLogCore e1 core a = core a := by
  have hp : ∀ b, logDomain b → logPoint e1 core b = core b := fun b hb => if_pos (h b hb)
  unfold legalLogCore
  rw [hp _ logDomain_eight, hp _ logDomain_two, hp _ ha, h3]
  exact if_neg (by simp)

/-! ## The whole record -/

theorem legalPowCore_spec (core : Word → Word → Word) (x y : Word) :
    isNan (legalPowCore core x y) = false ∧ sgn (legalPowCore core x y) = false := by
  unfold legalPowCore
  split
  · decide
  · exact positiveOrInf_spec _

theorem fabs_of_nonneg {r : Word} (h : sgn r = false) : fabs r = r := eq_of_fields (by simp [h]) (by simp) (by simp)

/-- A result with sign 0 under `signedBelow` is itself at most the bound (R243). -/
theorem signedBelow_zero_spec (bound r : Word) (hb : bound.toNat ≤ 0x7F800000) :
    isNan (signedBelow bound Pat.zero r) = false ∧ sgn (signedBelow bound Pat.zero r) = false ∧
    signedBelow bound Pat.zero r ≤ bound := by
  obtain ⟨hn, hs, hle⟩ := signedBelow_spec bound Pat.zero r hb
  have hs' : sgn (signedBelow bound Pat.zero r) = false := hs
  exact ⟨hn, hs', by rwa [fabs_of_nonneg hs'] at hle⟩

theorem ovfLegal_iff (c : Cfg) :
    Cfg.ovfLegal c = true ↔ Pat.one < c.expOvfThr ∧ c.expOvfThr ≤ 0x42B17218#32 := by simp [Cfg.ovfLegal]

theorem udfLegal_iff (c : Cfg) :
    Cfg.udfLegal c = true ↔ Pat.one < c.expUdfThr ∧ c.expUdfThr < Pat.pinf := by simp [Cfg.udfLegal]

theorem ovfLegal_legalise (c : Cfg) : Cfg.ovfLegal (Cfg.legalise c) = true := by
  rw [ovfLegal_iff]
  show _ < ite _ _ _ ∧ ite _ _ _ ≤ _
  split
  · next h => exact (ovfLegal_iff c).1 h
  · decide

theorem udfLegal_legalise (c : Cfg) : Cfg.udfLegal (Cfg.legalise c) = true := by
  rw [udfLegal_iff]
  show _ < ite _ _ _ ∧ ite _ _ _ < _
  split
  · next h => exact (udfLegal_iff c).1 h
  · decide

/-- Every record is legal once it is legalised. -/
theorem legal_legalise (c : Cfg) : Cfg.Legal (Cfg.legalise c) := by
  have hovf := (ovfLegal_iff _).1 (ovfLegal_legalise c)
  have he1 := expOneLegal_legalExpCore_one c.expCore
  obtain ⟨-, -, hhalf, -⟩ := (expOneLegal_iff _).1 he1
  have hlog := fun a => (logPointLegal_iff ..).1 (logPointLegal_legalLogCore hhalf c.logCore a)
  choose hfin hneg hpos hnear using hlog
  exact {
    depth := Nat.le_max_right _ _
    ovf := hovf
    udf := (udfLegal_iff _).1 (udfLegal_legalise c)
    expCore := fun a _ => legalExpCore_spec c.expCore a
    logFinite := fun a _ => hfin a
    logNegative := fun a _ => hneg a
    logPositive := fun a _ => hpos a
    logExpOne := by
      rw [fpExp_of_expDomain _ (expDomain_one hovf.1)]
      exact (congrArg (near · 1) (fpLog_of_logDomain _ (logDomain_of_expOneLegal he1))).trans (hnear _ rfl)
    logEight := by
      rw [fpLog_of_logDomain _ logDomain_eight, fpLog_of_logDomain _ logDomain_two]
      exact near_legalLogCore _ c.logCore
    powCore := fun x y _ => legalPowCore_spec c.powCore x y
    powTwoThree := rfl
    atanCore := fun a _ _ => signedBelow_spec _ _ _ (by decide)
    asinCore := fun a _ _ => signedBelow_spec _ _ _ (by decide)
    acosCore := fun a _ => signedBelow_zero_spec _ _ (by decide)
    atan2Core := fun y x _ _ _ _ => signedBelow_spec _ _ _ (by decide) }

/-- Settles O45: the block's record is a legalised one. -/
theorem configurationMeetsItsContracts : Obligations.ConfigurationMeetsItsContracts :=
  legal_legalise Config.freeCfg

/-! ## A legal record is kept -/

/-- A negative result is not near 1. -/
theorem not_near_one_of_sgn {r : Word} (hs : sgn r = true) : near r 1 = false := by
  have hu : units r ≤ 0 := by simp [units, hs]
  simp only [near, Bool.and_eq_false_iff, decide_eq_false_iff_not]
  right
  omega

/-- What a legal record gives of `e = exp_core(ONE)`: the logarithm of an infinity, a zero, 1 or an operand below 0.5
is not near 1 (log entry 19). -/
theorem Cfg.Legal.expOne {c : Cfg} (hc : Cfg.Legal c) :
    expOneLegal (c.expCore Pat.one) = true ∧ near (c.logCore (c.expCore Pat.one)) 1 = true := by
  have hdom := expDomain_one hc.ovf.1
  obtain ⟨hn, hs⟩ := hc.expCore _ hdom
  have hnear := hc.logExpOne
  rw [fpExp_of_expDomain c hdom] at hnear
  generalize c.expCore Pat.one = e at hn hs hnear ⊢
  have hz : isZero e = false := by
    by_contra hz
    have hlog : fpLog c e = Pat.ninf := by simp [fpLog, hn, hz]
    rw [hlog, not_near_one_of_sgn (by decide)] at hnear
    contradiction
  have hf : isFinite e = true := by
    by_contra hf
    have hlog : fpLog c Pat.pinf = Pat.pinf := rfl
    rw [eq_pinf_of_not_finite hn hs (by simpa using hf), hlog] at hnear
    exact absurd hnear (by decide)
  have h1 : e ≠ Pat.one := by
    rintro rfl
    have hlog : fpLog c Pat.one = Pat.zero := rfl
    rw [hlog] at hnear
    exact absurd hnear (by decide +kernel)
  have hd : logDomain e := ⟨hf, hz, hs, h1⟩
  rw [fpLog_of_logDomain c hd] at hnear
  refine ⟨(expOneLegal_iff e).2 ⟨hf, hs, BitVec.not_lt.1 fun hlt => ?_, h1⟩, hnear⟩
  rw [not_near_one_of_sgn (hc.logNegative e hd hlt).1] at hnear
  contradiction

theorem Cfg.Legal.expCore_eq {c : Cfg} (hc : Cfg.Legal c) {a : Word} (ha : Cfg.expDomain c a) :
    legalExpCore c.expCore a = c.expCore a := by
  obtain ⟨hn, hs⟩ := hc.expCore a ha
  exact legalExpCore_eq hn hs fun h => h ▸ hc.expOne.1

theorem Cfg.Legal.logCore_eq {c : Cfg} (hc : Cfg.Legal c) {a : Word} (ha : logDomain a) :
    legalLogCore (legalExpCore c.expCore Pat.one) c.logCore a = c.logCore a := by
  rw [hc.expCore_eq (expDomain_one hc.ovf.1)]
  refine legalLogCore_eq (fun b hb => (logPointLegal_iff ..).2 ⟨hc.logFinite b hb, hc.logNegative b hb,
    hc.logPositive b hb, fun h => h ▸ hc.expOne.2⟩) ?_ ha
  have h := hc.logEight
  rwa [fpLog_of_logDomain c logDomain_eight, fpLog_of_logDomain c logDomain_two] at h

theorem Cfg.Legal.powCore_eq {c : Cfg} (hc : Cfg.Legal c) {x y : Word} (h : powDomain x y) :
    legalPowCore c.powCore x y = c.powCore x y := by
  unfold legalPowCore
  split
  · next hxy => rw [hxy.1, hxy.2, hc.powTwoThree]
  · exact positiveOrInf_eq _ (hc.powCore x y h).1 (hc.powCore x y h).2

/-- Settles O46: each field of a legal record meets its contract, and `legalise` keeps what meets it. -/
theorem legaliseKeepsLegalConfigurations : Obligations.LegaliseKeepsLegalConfigurations := by
  unfold Obligations.LegaliseKeepsLegalConfigurations
  intro c hc
  refine ⟨Nat.max_eq_left hc.depth, if_pos ((ovfLegal_iff c).2 hc.ovf),
    if_pos ((udfLegal_iff c).2 hc.udf), fun a => hc.expCore_eq, fun a => hc.logCore_eq,
    fun x y => hc.powCore_eq, fun a hf hz => ?_, fun a hz h1 => ?_, fun a h1 => ?_, fun y x hy hy' hx hx' => ?_⟩
  · obtain ⟨-, hs, hle⟩ := hc.atanCore a hf hz
    exact signedBelow_eq _ _ _ hs hle
  · obtain ⟨-, hs, hle⟩ := hc.asinCore a hz h1
    exact signedBelow_eq _ _ _ hs hle
  · obtain ⟨-, hs, hle⟩ := hc.acosCore a h1
    exact signedBelow_eq _ Pat.zero _ hs ((fabs_of_nonneg hs).symm ▸ hle)
  · obtain ⟨-, hs, hle⟩ := hc.atan2Core y x hy hy' hx hx'
    exact signedBelow_eq _ _ _ hs hle

end Sys2Proof.Machine

/-! ## Computed NaNs are canonical (R12)

A result is `CNAN` or no NaN. For most units the classes of the datapath's result decide it. The sine needs more: NEG
of a NaN would not be canonical (R114), so on finite operands `bhaskara` may give none, which the exponents of its
intermediate results show. -/

namespace Sys2Proof.Machine

/-- A word that is a NaN only as `CNAN` (R12). -/
def CanonicalNan (v : Word) : Prop := isNan v = true → v = Pat.cnan

theorem CanonicalNan.cnan : CanonicalNan Pat.cnan := fun _ => rfl

theorem CanonicalNan.of_not_nan {v : Word} (h : isNan v = false) : CanonicalNan v :=
  fun h' => absurd (h.symm.trans h') Bool.false_ne_true

/-- A dispatch is canonical when its lines are. -/
theorem CanonicalNan.ite {p : Prop} [Decidable p] {v w : Word} (hv : p → CanonicalNan v)
    (hw : ¬ p → CanonicalNan w) : CanonicalNan (if p then v else w) := by
  split
  · exact hv ‹_›
  · exact hw ‹_›

/-! ### Classes -/

theorem isNan_of_isFinite {r : Word} (h : isFinite r = true) : isNan r = false := by
  simp [isNan, (isFinite_iff r).1 h]

theorem isInf_of_isFinite {r : Word} (h : isFinite r = true) : isInf r = false := by
  simp [isInf, (isFinite_iff r).1 h]

theorem isFinite_of_not {r : Word} (hn : isNan r = false) (hi : isInf r = false) : isFinite r = true := by
  rw [isFinite_iff]
  intro he
  by_cases hm : mant r = 0
  · simp [isInf, he, hm] at hi
  · simp [isNan, he, hm] at hn

theorem isFinite_of_expo_lt {r : Word} (h : expo r < 255) : isFinite r = true := (isFinite_iff r).2 (by omega)

theorem isNan_of_expo_lt {r : Word} (h : expo r < 255) : isNan r = false :=
  isNan_of_isFinite (isFinite_of_expo_lt h)

theorem CanonicalNan.pattern_zero (s : Bool) (e : Nat) : CanonicalNan (pattern s e 0) :=
  .of_not_nan (by simp [isNan])

theorem expo_eq_zero_of_isZero {r : Word} (h : isZero r = true) : expo r = 0 := ((isZero_iff r).1 h).1

theorem isZero_of_expo_pos {r : Word} (h : 1 ≤ expo r) : isZero r = false := by
  rw [Bool.eq_false_iff]
  intro hz
  have := expo_eq_zero_of_isZero hz
  omega

@[simp] theorem expo_fneg (r : Word) : expo (fneg r) = expo r := by
  simp [expo, fneg, BitVec.extractLsb'_xor]

@[simp] theorem mant_fneg (r : Word) : mant (fneg r) = mant r := by
  simp [mant, fneg, BitVec.extractLsb'_xor]

@[simp] theorem isNan_fneg (r : Word) : isNan (fneg r) = isNan r := by simp [isNan]

@[simp] theorem isFinite_fneg (r : Word) : isFinite (fneg r) = isFinite r := by simp [isFinite]

theorem toNat_lt_of_sgn {r : Word} (h : sgn r = false) : r.toNat < 2 ^ 31 := by simpa [sgn_eq] using h

/-- A sign bit put over a word does not touch its class. -/
theorem isNan_signBit_or (a : Word) {r : Word} (hr : sgn r = false) : isNan (signBit a ||| r) = isNan r := by
  rw [← isNan_fabs, fabs_signBit_or a r (toNat_lt_of_sgn hr)]

theorem isNan_sign_or (s : Bool) {r : Word} (hr : sgn r = false) :
    isNan ((if s then 0x80000000#32 else 0) ||| r) = isNan r := by
  have h : (if s then 0x80000000#32 else 0) = signBit (if s then 0x80000000#32 else 0) := by cases s <;> decide
  rw [h, isNan_signBit_or _ hr]

theorem CanonicalNan.signBit_or (a : Word) {r : Word} (hs : sgn r = false) (hn : isNan r = false) :
    CanonicalNan (signBit a ||| r) :=
  .of_not_nan ((isNan_signBit_or a hs).trans hn)

/-- A word that is no NaN and neither infinity is finite. -/
theorem isFinite_of_ne_inf {r : Word} (hn : isNan r = false) (hp : r ≠ Pat.pinf) (hm : r ≠ Pat.ninf) :
    isFinite r = true := by
  refine isFinite_of_not hn (Bool.eq_false_iff.2 fun hi => ?_)
  obtain ⟨he, h0⟩ := (isInf_iff r).1 hi
  cases hs : sgn r
  · exact hp (eq_of_fields hs he h0)
  · exact hm (eq_of_fields hs he h0)

theorem ne_ninf_of_sgn {r : Word} (hs : sgn r = false) : r ≠ Pat.ninf := by
  rintro rfl
  exact absurd hs (by decide)

theorem fabs_eq_zero_iff (r : Word) : fabs r = Pat.zero ↔ isZero r = true := by
  constructor
  · intro h
    rw [← isZero_fabs, h]
    decide
  · intro h
    obtain ⟨he, hm⟩ := (isZero_iff r).1 h
    exact eq_of_fields (sgn_fabs r) ((expo_fabs r).trans he) ((mant_fabs r).trans hm)

theorem eq_of_fabs_eq_one {r : Word} (h : fabs r = Pat.one) : r = Pat.one ∨ r = Pat.minusOne := by
  have he : expo r = 127 := by rw [← expo_fabs, h]; decide
  have hm : mant r = 0 := by rw [← mant_fabs, h]; decide
  cases hs : sgn r
  · exact .inl (eq_of_fields hs he hm)
  · exact .inr (eq_of_fields hs he hm)

/-! ### Exponents of `pack`, `norm` and `normalize_mag` -/

theorem expo_pack (s : Bool) (m : Nat) (e : Int) : (expo (pack s m e) : Int) = max 0 (min e 255) := by
  unfold pack
  split
  · rw [expo_pattern]; omega
  · split
    · rw [expo_pattern]; omega
    · dsimp only; split <;> rw [expo_pattern] <;> omega

theorem normLoop_exponent_le (n m : Nat) (e : Int) : (normLoop n m e).2 ≤ e := by
  induction n generalizing m e with
  | zero => exact le_refl e
  | succ n ih =>
    unfold normLoop
    split
    · exact le_refl e
    · have := ih (m <<< 1) (e - 1)
      omega

/-- The exponent `norm` gives is the exponent field, or at most 1 for a subnormal (R90). -/
theorem norm_exponent (r : Word) : (norm r).2 = expo r ∨ expo r = 0 ∧ (norm r).2 ≤ 1 := by
  unfold norm
  split
  · exact .inl rfl
  · next h => exact .inr ⟨by omega, normLoop_exponent_le 23 _ 1⟩

theorem normalizeMag_exponent (n : Nat) (e : Int) : (normalizeMag n e).2 = e + n.log2 - 23 := by
  unfold normalizeMag
  dsimp only
  split <;> dsimp only <;> omega

/-- Renormalizing a number of at most `k` bits gives an exponent field at most `k - 24` above the one given. -/
theorem expo_pack_normalizeMag_le (s : Bool) {n k : Nat} (e : Int) (h0 : n ≠ 0) (hn : n < 2 ^ k) :
    (expo (pack s (normalizeMag n e).1 (normalizeMag n e).2) : Int) ≤ max 0 (e + k - 24) := by
  have hlog : n.log2 < k := (Nat.log2_lt h0).2 hn
  rw [expo_pack, normalizeMag_exponent]
  omega

/-! ### Multiplier -/

theorem isNan_mulDatapath (a b : Word) : isNan (mulDatapath a b) = false := by
  unfold mulDatapath
  dsimp only
  split <;> exact isNan_pack _ _ _

theorem canonicalNan_fpMul (a b : Word) : CanonicalNan (fpMul a b) :=
  .ite (fun _ => .cnan) fun _ =>
    .ite (fun _ => .ite (fun _ => .cnan) fun _ => .pattern_zero _ _) fun _ =>
    .ite (fun _ => .pattern_zero _ _) fun _ =>
      .of_not_nan (isNan_mulDatapath a b)

/-- Of finite operands, a zero gives a zero, and the others go through the datapath (R125). -/
theorem fpMul_cases {a b : Word} (ha : isFinite a = true) (hb : isFinite b = true) :
    (isZero a = true ∨ isZero b = true) ∧ fpMul a b = pattern (xorSign a b) 0 0 ∨
    isZero a = false ∧ isZero b = false ∧ fpMul a b = mulDatapath a b := by
  unfold fpMul
  rw [isNan_of_isFinite ha, isNan_of_isFinite hb, isInf_of_isFinite ha, isInf_of_isFinite hb]
  cases isZero a <;> cases isZero b <;> simp

/-- The exponent field of a product: the sum of the exponents, or one more, clamped by `pack` (R126). -/
theorem expo_mulDatapath (a b : Word) :
    max 0 (min ((norm a).2 + (norm b).2 - 127) 255) ≤ (expo (mulDatapath a b) : Int) ∧
    (expo (mulDatapath a b) : Int) ≤ max 0 (min ((norm a).2 + (norm b).2 - 126) 255) := by
  unfold mulDatapath
  dsimp only
  split <;> rw [expo_pack] <;> omega

/-- A normal product comes from nonzero operands with large enough exponents. -/
theorem expo_le_of_fpMul {a b : Word} (ha : isFinite a = true) (hb : isFinite b = true) (h : 1 ≤ expo (fpMul a b)) :
    isZero a = false ∧ isZero b = false ∧ (expo (fpMul a b) : Int) ≤ (norm a).2 + (norm b).2 - 126 := by
  rcases fpMul_cases ha hb with ⟨-, h0⟩ | ⟨hza, hzb, h0⟩
  · rw [h0, expo_pattern] at h
    omega
  · rw [h0] at h ⊢
    have := (expo_mulDatapath a b).2
    exact ⟨hza, hzb, by omega⟩

theorem expo_fpMul_le {a b : Word} (ha : isFinite a = true) (hb : isFinite b = true) :
    expo (fpMul a b) ≤ max (expo a) 1 + max (expo b) 1 - 126 := by
  by_cases h : 1 ≤ expo (fpMul a b)
  · have := expo_le_of_fpMul ha hb h
    have := norm_exponent a
    have := norm_exponent b
    omega
  · omega

theorem le_expo_fpMul {a b : Word} (ha : isFinite a = true) (hb : isFinite b = true) (hza : isZero a = false)
    (hzb : isZero b = false) : min ((norm a).2 + (norm b).2 - 127) 255 ≤ expo (fpMul a b) := by
  rcases fpMul_cases ha hb with ⟨h | h, -⟩ | ⟨-, -, h0⟩
  · simp [h] at hza
  · simp [h] at hzb
  · have := (expo_mulDatapath a b).1
    rw [h0]
    omega

/-! ### Scaling -/

theorem canonicalNan_fpScaleb (x : Word) (n : Int) : CanonicalNan (fpScaleb x n) :=
  .ite (fun _ => .cnan) fun h =>
    .ite (fun _ => .of_not_nan (by simpa using h)) fun _ =>
      .of_not_nan (isNan_pack _ _ _)

/-! ### Divider -/

theorem isNan_divDatapath (a b : Word) : isNan (divDatapath a b) = false := by
  unfold divDatapath
  dsimp only
  split <;> exact isNan_pack _ _ _

theorem canonicalNan_fpDiv (a b : Word) : CanonicalNan (fpDiv a b) :=
  .ite (fun _ => .cnan) fun _ =>
    .ite (fun _ => .ite (fun _ => .cnan) fun _ => .pattern_zero _ _) fun _ =>
    .ite (fun _ => .pattern_zero _ _) fun _ =>
    .ite (fun _ => .ite (fun _ => .cnan) fun _ => .pattern_zero _ _) fun _ =>
    .ite (fun _ => .pattern_zero _ _) fun _ =>
      .of_not_nan (isNan_divDatapath a b)

/-- The only invalid quotient of finite operands is zero by zero (R130). -/
theorem isNan_fpDiv_of_finite {a b : Word} (ha : isFinite a = true) (hb : isFinite b = true)
    (hz : isZero a = false ∨ isZero b = false) : isNan (fpDiv a b) = false := by
  have hp : ∀ e, isNan (pattern (xorSign a b) e 0) = false := fun e => by simp [isNan]
  unfold fpDiv
  rw [isNan_of_isFinite ha, isNan_of_isFinite hb, isInf_of_isFinite ha, isInf_of_isFinite hb]
  cases hzb : isZero b
  · cases isZero a <;> simp [hp, isNan_divDatapath]
  · have hza : isZero a = false := by simpa [hzb] using hz
    simp [hza, hp]

/-! ### Adder -/

/-- The aligned sum of step 5 of R112, as `addDatapath` forms it. -/
def alignedSum (x y : Word) : Int :=
  signedMantissa x * 64 + (signedMantissa y * 64) >>> (max (expo x) 1 - max (expo y) 1)

theorem addDatapath_eq (x y : Word) :
    addDatapath x y =
      if alignedSum x y = 0 then Pat.zero
      else pack (decide (alignedSum x y < 0)) (normalizeMag (alignedSum x y).natAbs (max (expo x) 1 - 6)).1
        (normalizeMag (alignedSum x y).natAbs (max (expo x) 1 - 6)).2 := by
  unfold addDatapath alignedSum
  simp

theorem isNan_addDatapath (x y : Word) : isNan (addDatapath x y) = false := by
  rw [addDatapath_eq]
  split
  · decide
  · exact isNan_pack _ _ _

theorem signedMantissa_bounds (a : Word) : -2 ^ 24 < signedMantissa a ∧ signedMantissa a < 2 ^ 24 := by
  have hm := mant_lt a
  unfold signedMantissa magnitude
  split <;> split <;> omega

/-- A floored shift stays within a bound around zero. -/
theorem shiftRight_bounds {z : Int} {B : Nat} (hl : -(B : Int) ≤ z) (hu : z ≤ B) (d : Nat) :
    -(B : Int) ≤ z >>> d ∧ z >>> d ≤ B := by
  rw [Int.shiftRight_eq_div_pow]
  have hd : (1 : Int) ≤ ((2 ^ d : Nat) : Int) := by exact_mod_cast Nat.one_le_two_pow
  constructor
  · rw [Int.le_ediv_iff_mul_le (by omega)]
    nlinarith
  · exact Int.ediv_le_of_le_mul (by omega) (by nlinarith)

theorem alignedSum_natAbs_lt (x y : Word) : (alignedSum x y).natAbs < 2 ^ 31 := by
  obtain ⟨hxl, hxu⟩ := signedMantissa_bounds x
  obtain ⟨hyl, hyu⟩ := signedMantissa_bounds y
  have hs := shiftRight_bounds (z := signedMantissa y * 64) (B := 2 ^ 30) (by omega) (by omega)
    (max (expo x) 1 - max (expo y) 1)
  unfold alignedSum
  omega

theorem expo_addDatapath_le (x y : Word) : expo (addDatapath x y) ≤ max (expo x) 1 + 1 := by
  rw [addDatapath_eq]
  split
  · exact Nat.zero_le _
  · next h =>
    have := expo_pack_normalizeMag_le (decide (alignedSum x y < 0)) (max (expo x) 1 - 6 : Int)
      (Int.natAbs_ne_zero.2 h) (alignedSum_natAbs_lt x y)
    omega

theorem canonicalNan_addAnchored {x y : Word} (hx : isNan x = false) : CanonicalNan (addAnchored x y) :=
  .ite (fun _ => .ite (fun _ => .of_not_nan hx) fun _ => .ite (fun _ => .of_not_nan hx) fun _ => .cnan) fun _ =>
    .ite (fun _ => .of_not_nan hx) fun _ => .of_not_nan (isNan_addDatapath x y)

theorem canonicalNan_fpAdd (a b : Word) : CanonicalNan (fpAdd a b) :=
  .ite (fun _ => .cnan) fun h => by
    obtain ⟨ha, hb⟩ : isNan a = false ∧ isNan b = false := by simpa using h
    exact .ite (fun _ => canonicalNan_addAnchored hb) fun _ => canonicalNan_addAnchored ha

theorem expo_addAnchored_le {x : Word} (y : Word) (hx : isFinite x = true) :
    expo (addAnchored x y) ≤ max (expo x) 1 + 1 := by
  unfold addAnchored
  rw [if_neg ((isFinite_iff x).1 hx)]
  split
  · omega
  · exact expo_addDatapath_le x y

theorem expo_fpAdd_le {a b : Word} (ha : isFinite a = true) (hb : isFinite b = true) :
    expo (fpAdd a b) ≤ max (max (expo a) (expo b)) 1 + 1 := by
  have hxa := expo_addAnchored_le b ha
  have hxb := expo_addAnchored_le a hb
  unfold fpAdd
  rw [isNan_of_isFinite ha, isNan_of_isFinite hb, if_neg (by simp)]
  split <;> omega

theorem expo_fpSub_le {a b : Word} (ha : isFinite a = true) (hb : isFinite b = true) :
    expo (fpSub a b) ≤ max (max (expo a) (expo b)) 1 + 1 := by
  have h := expo_fpAdd_le ha (b := fneg b) (by simpa using hb)
  rwa [expo_fneg] at h

/-! ### Sine -/

/-- The difference from `5 pi^2` is zero only for an operand within 25 exponent steps of it (R110). -/
theorem expo_of_isZero_fivePiSq_sub {t : Word} (ht : isFinite t = true) (h : isZero (fpSub Pat.fivePiSq t) = true) :
    107 ≤ expo t := by
  by_contra hlt
  have hc : expo Pat.fivePiSq = 132 := by decide
  have he : expo (fpNeg t) = expo t := expo_fneg t
  have hn : isNan Pat.fivePiSq = false ∧ isNan (fpNeg t) = false :=
    ⟨by decide, (isNan_fneg t).trans (isNan_of_isFinite ht)⟩
  have hsub : fpSub Pat.fivePiSq t = Pat.fivePiSq := by
    unfold fpSub fpAdd addAnchored
    rw [hn.1, hn.2, if_neg (by simp), if_neg (by omega), if_neg (by omega), if_pos (by omega)]
  rw [hsub] at h
  exact absurd h (by decide)

/-- `16x` and `4x` of a moderate `x` are finite, with the exponent fields multiplication by a power of two allows. -/
theorem expo_sixteen_mul_le {x : Word} (h : expo x ≤ 132) : expo (fpMul Pat.sixteen x) ≤ 137 := by
  have hm := expo_fpMul_le (a := Pat.sixteen) (by decide) (isFinite_of_expo_lt (r := x) (by omega))
  have hc : expo Pat.sixteen = 131 := by decide
  omega

theorem expo_four_mul_le {x : Word} (h : expo x ≤ 132) : expo (fpMul Pat.four x) ≤ 135 := by
  have hm := expo_fpMul_le (a := Pat.four) (by decide) (isFinite_of_expo_lt (r := x) (by omega))
  have hc : expo Pat.four = 129 := by decide
  omega

/-- Where the denominator's product `(4x)p` is not small, the numerator `(16x)p` is not zero. -/
theorem isZero_sixteen_mul_mul {x p : Word} (hx : expo x ≤ 132) (hp : expo p ≤ 133)
    (h : 107 ≤ expo (fpMul (fpMul Pat.four x) p)) : isZero (fpMul (fpMul Pat.sixteen x) p) = false := by
  have n4 : (norm Pat.four).2 = 129 := by decide
  have n16 : (norm Pat.sixteen).2 = 131 := by decide
  have fx : isFinite x = true := isFinite_of_expo_lt (by omega)
  have fp : isFinite p = true := isFinite_of_expo_lt (by omega)
  have h4x := expo_four_mul_le hx
  have h16x := expo_sixteen_mul_le hx
  obtain ⟨-, zp, hmul⟩ := expo_le_of_fpMul (a := fpMul Pat.four x) (isFinite_of_expo_lt (by omega)) fp (by omega)
  have np := norm_exponent p
  have n4x := norm_exponent (fpMul Pat.four x)
  obtain ⟨-, zx, hmul4⟩ := expo_le_of_fpMul (a := Pat.four) (b := x) (by decide) fx (by omega)
  have hmul16 := le_expo_fpMul (a := Pat.sixteen) (b := x) (by decide) fx (by decide) zx
  have n16x := norm_exponent (fpMul Pat.sixteen x)
  have hnum := le_expo_fpMul (a := fpMul Pat.sixteen x) (isFinite_of_expo_lt (by omega)) fp
    (isZero_of_expo_pos (by omega)) zp
  exact isZero_of_expo_pos (by omega)

/-- `bhaskara` of an operand of moderate size is no NaN: nothing overflows on the way, and where the denominator is zero
the numerator is not (R218). -/
theorem isNan_bhaskara {x : Word} (h : expo x ≤ 132) : isNan (bhaskara x) = false := by
  have hpi : expo Pat.pi = 128 := by decide
  have hfive : expo Pat.fivePiSq = 132 := by decide
  have hp := expo_fpSub_le (a := Pat.pi) (b := x) (by decide) (isFinite_of_expo_lt (by omega))
  have fp : isFinite (fpSub Pat.pi x) = true := isFinite_of_expo_lt (by omega)
  have h16 := expo_sixteen_mul_le h
  have h4 := expo_four_mul_le h
  have hnum := expo_fpMul_le (a := fpMul Pat.sixteen x) (isFinite_of_expo_lt (by omega)) fp
  have ht := expo_fpMul_le (a := fpMul Pat.four x) (isFinite_of_expo_lt (by omega)) fp
  have ft : isFinite (fpMul (fpMul Pat.four x) (fpSub Pat.pi x)) = true := isFinite_of_expo_lt (by omega)
  have hden := expo_fpSub_le (a := Pat.fivePiSq) (by decide) ft
  refine isNan_fpDiv_of_finite (isFinite_of_expo_lt (by omega)) (isFinite_of_expo_lt (by omega)) ?_
  by_contra hz
  obtain ⟨hzn, hzd⟩ := by simpa using hz
  have hzn' := isZero_sixteen_mul_mul h (by omega) (expo_of_isZero_fivePiSq_sub ft hzd)
  exact Bool.false_ne_true (hzn'.symm.trans hzn)

/-- Before each step of the reducer's loop the remainder is below twice the divisor (R217). -/
theorem remainderLoop_lt (my n r : Nat) (h : r < 2 * my) : remainderLoop my n r < 2 * my := by
  induction n generalizing r with
  | zero => exact h
  | succ n ih =>
    refine ih _ ?_
    rw [Nat.shiftLeft_eq]
    split <;> omega

/-- The reduced operand is below 8 in magnitude. -/
theorem expo_fmodTwoPi_le {a : Word} (ha : isFinite a = true) : expo (fmodTwoPi a) ≤ 129 := by
  unfold fmodTwoPi
  cases hz : isZero a
  · obtain ⟨-, hm, -⟩ := norm_spec a ha hz
    have hn := norm_exponent a
    simp only [Bool.false_eq_true, if_false]
    split
    · omega
    · have hloop := remainderLoop_lt 0xC90FDB ((norm a).2 - 129).toNat (norm a).1 (by omega)
      generalize remainderLoop 0xC90FDB ((norm a).2 - 129).toNat (norm a).1 = r' at hloop
      have hr : (if 0xC90FDB ≤ r' then r' - 0xC90FDB else r') < 2 ^ 24 := by split <;> omega
      generalize (if 0xC90FDB ≤ r' then r' - 0xC90FDB else r') = r at hr
      by_cases h0 : r = 0
      · simp [h0]
      · have := expo_pack_normalizeMag_le (sgn a) 129 h0 hr
        rw [if_neg h0]
        omega
  · simp [expo_eq_zero_of_isZero hz]

theorem expo_sinWrap_le {x : Word} (h : expo x ≤ 129) : expo (sinWrap x) ≤ 130 := by
  have hadd := expo_fpAdd_le (a := x) (b := Pat.twoPi) (isFinite_of_expo_lt (by omega)) (by decide)
  have hc : expo Pat.twoPi = 129 := by decide
  unfold sinWrap
  split <;> omega

theorem isNan_sinReflect {x : Word} (h : expo x ≤ 130) : isNan (sinReflect x) = false := by
  have hsub := expo_fpSub_le (a := Pat.twoPi) (b := x) (by decide) (isFinite_of_expo_lt (by omega))
  have hc : expo Pat.twoPi = 129 := by decide
  unfold sinReflect
  split
  · exact (isNan_fneg _).trans (isNan_bhaskara (by omega))
  · exact isNan_bhaskara (by omega)

theorem canonicalNan_fpSin (a : Word) : CanonicalNan (fpSin a) :=
  .ite (fun _ => .cnan) fun h => by
    obtain ⟨hn, hi⟩ : isNan a = false ∧ isInf a = false := by simpa using h
    exact .of_not_nan (isNan_sinReflect (expo_sinWrap_le (expo_fmodTwoPi_le (isFinite_of_not hn hi))))

/-! ### Rounding unit and square root -/

theorem signBit_cases (a : Word) : signBit a = 0 ∨ signBit a = 0x80000000#32 := by
  have h := signBit_toNat a
  split at h
  · exact .inr (BitVec.eq_of_toNat_eq h)
  · exact .inl (BitVec.eq_of_toNat_eq h)

theorem isNan_signBit (a : Word) : isNan (signBit a) = false := by
  rcases signBit_cases a with h | h <;> rw [h] <;> decide

theorem isNan_roundSmall (a : Word) (e : Int) (mode : RoundMode) : isNan (roundSmall (signBit a) e mode) = false := by
  unfold roundSmall
  cases mode with
  | floor | ceil => dsimp only; split <;> decide
  | round =>
    dsimp only
    split
    · exact (isNan_signBit_or a rfl).trans rfl
    · exact isNan_signBit a
  | trunc => exact isNan_signBit a

theorem expo_and_le (a m : Word) : expo (a &&& m) ≤ expo a := by
  simp only [expo, BitVec.extractLsb'_and, BitVec.toNat_and]
  exact Nat.and_le_left

/-- Adding at most one unit of the exponent field carries into it at most once. -/
theorem expo_add_le {t u : Word} (hu : u.toNat ≤ 2 ^ 23) (ht : expo t ≤ 253) : expo (t + u) ≤ expo t + 1 := by
  have hm := mant_lt t
  rw [expo_eq (t + u), BitVec.toNat_add, toNat_fields t]
  split <;> omega

theorem isNan_roundPick {s frac half t up : Word} (ht : isNan t = false) (hup : isNan up = false) (mode : RoundMode) :
    isNan (roundPick s frac half t up mode) = false := by
  unfold roundPick
  cases mode with
  | floor | ceil | round => dsimp only; split <;> assumption
  | trunc => exact ht

theorem canonicalNan_roundUnit (mode : RoundMode) (a : Word) : CanonicalNan (roundUnit mode a) :=
  .ite (fun _ => .cnan) fun hn => by
    have hn' : isNan a = false := by simpa using hn
    refine .ite (fun _ => .of_not_nan hn') fun he =>
      .ite (fun _ => .ite (fun _ => .of_not_nan hn') fun _ => .of_not_nan (isNan_roundSmall a _ mode)) fun _ =>
      .ite (fun _ => .of_not_nan hn') fun _ => .of_not_nan ?_
    have ht := expo_and_le a (~~~(0x007FFFFF#32 >>> ((expo a : Int) - 127).toNat))
    have hu : (0x00800000#32 >>> ((expo a : Int) - 127).toNat).toNat ≤ 2 ^ 23 := by
      rw [BitVec.toNat_ushiftRight]
      exact Nat.shiftRight_le _ _
    have hup := expo_add_le hu (ht.trans (by omega))
    exact isNan_roundPick (isNan_of_expo_lt (by omega)) (isNan_of_expo_lt (by omega)) mode

/-- The root has one bit for each iteration (R162). -/
theorem sqrtLoop_lt (n ix q s : Nat) : (sqrtLoop n ix q s).2 < q + 2 ^ n := by
  induction n generalizing ix q s with
  | zero => simp [sqrtLoop]
  | succ n ih =>
    unfold sqrtLoop
    have hp : 1 <<< n = 2 ^ n := by rw [Nat.shiftLeft_eq, Nat.one_mul]
    rw [hp, Nat.pow_succ]
    dsimp only
    split
    · exact (ih _ (q + 2 ^ n) _).trans_le (by omega)
    · exact (ih _ q _).trans_le (by omega)

theorem isNan_ofInt {v : Int} (h0 : 0 ≤ v) (h : v < 0x7F800000) : isNan (BitVec.ofInt 32 v) = false := by
  refine isNan_of_expo_lt ?_
  rw [expo_eq, BitVec.toNat_ofInt]
  omega

theorem isNan_sqrtDatapath {a : Word} (hf : isFinite a = true) (hz : isZero a = false) :
    isNan (sqrtDatapath a) = false := by
  obtain ⟨-, -, hl, hu, -⟩ := norm_spec a hf hz
  unfold sqrtDatapath
  extract_lets ue ix d q
  have hd : d.2 < 2 ^ 25 := (sqrtLoop_lt 25 (ix + ix) 0 0).trans_le (by omega)
  have hq : q ≤ 2 ^ 25 := by
    show ite _ _ _ ≤ _
    split <;> omega
  have hs : q >>> 1 ≤ 2 ^ 24 := by
    rw [Nat.shiftRight_eq_div_pow]
    omega
  have hue : ue >>> 1 = ue / 2 := (Int.shiftRight_natCast_right ue 1).trans (Int.shiftRight_eq_div_pow ue 1)
  rw [hue]
  exact isNan_ofInt (by omega) (by omega)

theorem canonicalNan_fpSqrt (a : Word) : CanonicalNan (fpSqrt a) :=
  .ite (fun _ => .cnan) fun hn => by
    have hn' : isNan a = false := by simpa using hn
    refine .ite (fun _ => .of_not_nan hn') fun hz =>
      .ite (fun _ => .cnan) fun _ =>
      .ite (fun _ => .of_not_nan hn') fun hi => .of_not_nan ?_
    exact isNan_sqrtDatapath (isFinite_of_not hn' (by simpa using hi)) (by simpa using hz)

/-! ### The units with open cores

Their results are NaNs only as the contracts of the configuration allow. -/

section
variable {c : Cfg} (hc : Cfg.Legal c)
include hc

theorem canonicalNan_fpExp (a : Word) : CanonicalNan (fpExp c a) :=
  .ite (fun _ => .cnan) fun hn =>
    .ite (fun _ => .of_not_nan (by decide)) fun hp =>
    .ite (fun _ => .of_not_nan (by decide)) fun hm =>
    .ite (fun _ => .of_not_nan (by decide)) fun hz =>
    .ite (fun _ => .of_not_nan (by decide)) fun ho =>
    .ite (fun _ => .of_not_nan (by decide)) fun hu => by
      have hf : isFinite a = true := isFinite_of_ne_inf (by simpa using hn) hp hm
      have ht : if sgn a then fabs a < c.expUdfThr else a < c.expOvfThr := by
        cases hs : sgn a
        · simpa [hs, BitVec.not_le] using ho
        · simpa [hs, BitVec.not_le] using hu
      exact .of_not_nan (hc.expCore a ⟨hf, by simpa using hz, ht⟩).1

theorem canonicalNan_fpLog (a : Word) : CanonicalNan (fpLog c a) :=
  .ite (fun _ => .cnan) fun hn =>
    .ite (fun _ => .of_not_nan (by decide)) fun hz =>
    .ite (fun _ => .cnan) fun hs =>
    .ite (fun _ => .of_not_nan (by decide)) fun hp =>
    .ite (fun _ => .of_not_nan (by decide)) fun h1 => by
      have hs' : sgn a = false := by simpa using hs
      have hf : isFinite a = true := isFinite_of_ne_inf (by simpa using hn) hp (ne_ninf_of_sgn hs')
      exact .of_not_nan (isNan_of_isFinite (hc.logFinite a ⟨hf, by simpa using hz, hs', h1⟩))

theorem canonicalNan_fpAtan (a : Word) : CanonicalNan (fpAtan c a) :=
  .ite (fun _ => .cnan) fun hn => by
    have hn' : isNan a = false := by simpa using hn
    refine .ite (fun _ => .signBit_or a rfl rfl) fun hi =>
      .ite (fun _ => .of_not_nan hn') fun hz => .of_not_nan ?_
    exact (hc.atanCore a (isFinite_of_not hn' (by simpa using hi)) (by simpa using hz)).1

theorem canonicalNan_fpAsin (a : Word) : CanonicalNan (fpAsin c a) :=
  .ite (fun _ => .cnan) fun hn =>
    .ite (fun _ => .cnan) fun hgt =>
    .ite (fun _ => .signBit_or a rfl rfl) fun hne =>
    .ite (fun _ => .of_not_nan (by simpa using hn)) fun hz => by
      have hlt : fabs a < Pat.one := BitVec.lt_of_le_ne (BitVec.not_lt.1 hgt) hne
      have hz' : isZero a = false := by simpa [fabs_eq_zero_iff] using hz
      exact .of_not_nan (hc.asinCore a hz' hlt).1

theorem canonicalNan_fpAcos (a : Word) : CanonicalNan (fpAcos c a) :=
  .ite (fun _ => .cnan) fun _ =>
    .ite (fun _ => .cnan) fun hgt =>
    .ite (fun _ => .of_not_nan (by decide)) fun h1 =>
    .ite (fun _ => .of_not_nan (by decide)) fun hm1 => by
      have hne : fabs a ≠ Pat.one := fun h => (eq_of_fabs_eq_one h).elim h1 hm1
      exact .of_not_nan (hc.acosCore a (BitVec.lt_of_le_ne (BitVec.not_lt.1 hgt) hne)).1

theorem canonicalNan_fpAtan2 (y x : Word) : CanonicalNan (fpAtan2 c y x) :=
  .ite (fun _ => .cnan) fun hn => by
    obtain ⟨hny, hnx⟩ : isNan y = false ∧ isNan x = false := by simpa using hn
    refine .ite (fun _ => .ite (fun _ => .signBit_or y rfl rfl) fun _ => .of_not_nan hny) fun hzy =>
      .ite (fun _ => .signBit_or y rfl rfl) fun hzx =>
      .ite (fun _ => ?_) fun hix =>
      .ite (fun _ => .signBit_or y rfl rfl) fun hiy => .of_not_nan ?_
    · split <;> split <;> exact .signBit_or y rfl rfl
    · exact (hc.atan2Core y x (isFinite_of_not hny (by simpa using hiy)) (by simpa using hzy)
        (isFinite_of_not hnx (by simpa using hix)) (by simpa using hzx)).1

theorem canonicalNan_powFiniteExponent {x y : Word} (hnx : isNan x = false) (hfy : isFinite y = true)
    (hzy : isZero y = false) : CanonicalNan (powFiniteExponent c x y) :=
  .ite (fun _ => .ite (fun _ => .pattern_zero _ _) fun _ => .pattern_zero _ _) fun hax =>
    .ite (fun _ => .cnan) fun _ =>
    .ite (fun _ => .pattern_zero _ _) fun h1 => by
    obtain ⟨hinf, hz⟩ := not_or.1 hax
    have hd : logDomain (fabs x) :=
      ⟨isFinite_of_ne_inf (by simpa using hnx) hinf (ne_ninf_of_sgn (sgn_fabs x)),
        by simpa [fabs_eq_zero_iff] using hz, sgn_fabs x, h1⟩
    obtain ⟨hn, hs⟩ := hc.powCore (fabs x) y ⟨hd, hfy, hzy⟩
    exact .of_not_nan ((isNan_sign_or _ hs).trans hn)

theorem canonicalNan_fpPow (x y : Word) : CanonicalNan (fpPow c x y) :=
  .ite (fun _ => .of_not_nan (by decide)) fun hzy =>
    .ite (fun _ => .of_not_nan (by decide)) fun _ =>
    .ite (fun _ => .cnan) fun hn => by
      obtain ⟨hnx, hny⟩ : isNan x = false ∧ isNan y = false := by simpa using hn
      refine .ite (fun _ => .of_not_nan ?_) fun hiy =>
        canonicalNan_powFiniteExponent hc hnx (isFinite_of_not hny (by simpa using hiy))
          (by simpa [fabs_eq_zero_iff] using hzy)
      split
      · decide
      · split <;> split <;> decide

end

/-! ### Every operation -/

/-- Every operation the rule applies to answers a NaN only as `CNAN`. -/
theorem canonicalNan_valueOf {i : Instr} (h : canonicalNanOp i = true) : CanonicalNan (valueOf i) := by
  have hc := configurationMeetsItsContracts
  cases i with
  | raw | dsign | drexp | drman | dexp | dman | normman | normexp | fromparts | neg => exact absurd h Bool.false_ne_true
  | scaleb a b => exact canonicalNan_fpScaleb a (asS32 b)
  | add a b => exact canonicalNan_fpAdd a b
  | sub a b => exact canonicalNan_fpAdd a (fpNeg b)
  | mul a b => exact canonicalNan_fpMul a b
  | div a b => exact canonicalNan_fpDiv a b
  | floor a => exact canonicalNan_roundUnit .floor a
  | ceil a => exact canonicalNan_roundUnit .ceil a
  | round a => exact canonicalNan_roundUnit .round a
  | trunc a => exact canonicalNan_roundUnit .trunc a
  | sqrt a => exact canonicalNan_fpSqrt a
  | exp a => exact canonicalNan_fpExp hc a
  | log a => exact canonicalNan_fpLog hc a
  | log2 a => exact canonicalNan_fpDiv (fpLog Config.cfg a) (fpLog Config.cfg Pat.two)
  | log10 a => exact canonicalNan_fpDiv (fpLog Config.cfg a) (fpLog Config.cfg Pat.ten)
  | logb a b => exact canonicalNan_fpDiv (fpLog Config.cfg a) (fpLog Config.cfg b)
  | pow a b => exact canonicalNan_fpPow hc a b
  | sin a => exact canonicalNan_fpSin a
  | cos a => exact canonicalNan_fpSin (fpAdd a Pat.halfPi)
  | tan a => exact canonicalNan_fpDiv (fpSin a) (fpCos a)
  | asin a => exact canonicalNan_fpAsin hc a
  | acos a => exact canonicalNan_fpAcos hc a
  | atan a => exact canonicalNan_fpAtan hc a
  | atan2 a b => exact canonicalNan_fpAtan2 hc a b

/-- FROMPARTS of the three fields DSIGN, DREXP and DRMAN read is the pattern they were read from (R82 to R84, R87). -/
theorem pattern_of_fieldWords (n : Word) :
    pattern (((n.extractLsb' 31 1).zeroExtend 32).getLsbD 0) ((n.extractLsb' 23 8).zeroExtend 32).toNat
      ((n.extractLsb' 0 23).zeroExtend 32).toNat = n := by
  have hs : ((n.extractLsb' 31 1).zeroExtend 32).getLsbD 0 = sgn n := by simp [sgn]
  have he : ((n.extractLsb' 23 8).zeroExtend 32).toNat = expo n := by
    rw [BitVec.toNat_setWidth]
    exact Nat.mod_eq_of_lt ((expo_lt n).trans (by decide))
  have hm : ((n.extractLsb' 0 23).zeroExtend 32).toNat = mant n := by
    rw [BitVec.toNat_setWidth]
    exact Nat.mod_eq_of_lt ((mant_lt n).trans (by decide))
  rw [hs, he, hm, pattern_fields]

/-- Settles O59: the canonical operations by their units, the bit-transfer ones by what they move. -/
theorem computedNansAreCanonical : Obligations.ComputedNansAreCanonical := by
  unfold Obligations.ComputedNansAreCanonical
  refine ⟨fun i v hi hv hn => ?_, fun n _ => ⟨fun _ => rfl, fun _ => rfl, ?_⟩⟩
  · obtain rfl := (gives_iff i v).1 hv
    exact canonicalNan_valueOf hi hn
  · exact ⟨_, _, _, fun _ => rfl, fun _ => rfl, fun _ => rfl, (gives_iff _ _).2 (pattern_of_fieldWords n).symm⟩

end Sys2Proof.Machine

/-! PROOFS of the state family (10_state.md): the handshake on the ports, the queue between them, and the order of the
responses. Each rests on what the clock edge and the work on the oldest command do, said once below. -/

/-! ## The ports in one cycle (R23) -/

namespace Sys2Proof.Machine

theorem presented_eq_some (p : PortInput) (w : CommandWord) :
    p.presented = some w ↔ p.cmdValid = true ∧ p.cmdWord = w := by simp [PortInput.presented]

theorem accepted_eq_some (s : State) (w : CommandWord) : s.accepted = some w ↔
    s.input.rst = false ∧ s.input.presented = some w ∧ s.cmdReady = true := by
  constructor
  · intro h
    obtain ⟨hc, hp, hr⟩ := accepted_cmdReady s w h
    exact ⟨hr, hp, hc⟩
  · rintro ⟨hr, hp, hc⟩
    simp [State.accepted, hr, hp, hc]

theorem delivered_eq_some (s : State) (p : Response) : s.delivered = some p ↔
    s.input.rst = false ∧ s.rsp = some p ∧ s.input.rspReady = true := by
  constructor
  · intro h
    obtain ⟨hp, hd, hr⟩ := delivered_rsp s p h
    exact ⟨hr, hp, hd⟩
  · rintro ⟨hr, hp, hd⟩
    simp [State.delivered, hr, hp, hd]

theorem delivered_of_not_rspReady {s : State} (h : s.input.rspReady = false) : s.delivered = none := by
  simp [State.delivered, h]

theorem breaksHandshake_iff (s : State) :
    s.breaksHandshake = true ↔ ∃ w, s.held = some w ∧ s.input.presented ≠ some w := by
  unfold State.breaksHandshake
  cases s.held <;> simp

/-- Whatever the host's list promises of its next cycles, and a quiet host does as well, it does in this cycle. -/
theorem input_of_forall_take {P : PortInput → Prop} {n : Nat} {s : State} (h : ∀ p ∈ s.inputs.take (n + 1), P p)
    (hq : ∀ v w, P ⟨false, v, w, false⟩) : P s.input := by
  unfold State.input
  cases hi : s.inputs with
  | nil => exact hq _ _
  | cons p q => exact h p (by simp [hi])

/-- What the host's list promises of its next `n + 1` cycles it promises of the `n` after this one. -/
theorem forall_take_tail {P : PortInput → Prop} {n : Nat} {l : List PortInput} (h : ∀ p ∈ l.take (n + 1), P p) :
    ∀ p ∈ l.tail.take n, P p := by
  cases l with
  | nil => simp
  | cons x l => exact fun p hp => h p (List.mem_cons_of_mem x hp)

/-! ## The clock edge (R24) -/

theorem clockEdge_rsp_of_delivered {s : State} {p : Response} (h : s.delivered = some p) : s.clockEdge.rsp = none := by
  simp [State.clockEdge_rsp, h]

theorem clockEdge_rsp_of_not_delivered {s : State} (h : s.delivered = none) : s.clockEdge.rsp = s.rsp := by
  simp [State.clockEdge_rsp, h]

/-- While nothing is delivered the oldest command stays the oldest. -/
theorem nextQueue_cons {s : State} {f : Flight} {q : List Flight} (hd : s.delivered = none) (hi : s.inflight = f :: q) :
    ∃ q', s.nextQueue = f :: q' := by
  simp [State.nextQueue, hd, hi]

theorem nextQueue_length_le {s : State} (h : s.inflight.length ≤ queueDepth) : s.nextQueue.length ≤ queueDepth := by
  have hw := congrArg List.length (nextQueue_words s)
  have htail : (if s.delivered.isSome then s.inflight.tail else s.inflight).length ≤ s.inflight.length := by
    split <;> simp
  rw [List.length_append, List.length_map, List.length_map] at hw
  cases ha : s.accepted with
  | none =>
    rw [ha, Option.toList_none, List.length_nil] at hw
    omega
  | some w =>
    have hroom := cmdReady_room s (accepted_cmdReady s w ha).1
    rw [ha, Option.toList_some, List.length_singleton] at hw
    omega

theorem clockEdge_inv {s : State} (h : s.Inv) : s.clockEdge.Inv := by
  obtain ⟨hlen, hrsp⟩ := h
  refine ⟨nextQueue_length_le hlen, fun p hp => ?_⟩
  cases hd : s.delivered with
  | some r => simp [clockEdge_rsp_of_delivered hd] at hp
  | none =>
    rw [clockEdge_rsp_of_not_delivered hd] at hp
    obtain ⟨f, q, hi, hf⟩ := hrsp p hp
    obtain ⟨q', hq'⟩ := nextQueue_cons hd hi
    exact ⟨f, q', hq', hf⟩

/-! ## The work on the oldest command (R24, R318) -/

theorem tick_of_rsp {s : State} (h : s.rsp ≠ none) : s.tick = s := by
  unfold State.tick
  split
  · contradiction
  · rfl

theorem tick_inflight_of_wait {s : State} {w : CommandWord} {k : Nat} {q : List Flight} (hr : s.rsp = none)
    (hi : s.inflight = ⟨w, k + 1⟩ :: q) : s.tick.inflight = ⟨w, k⟩ :: q := by
  simp [State.tick, hr, hi]

/-- With the port free and no command due, the oldest command's latency is not over. -/
theorem wait_pos_of_not_due {s : State} {f : Flight} {q : List Flight} (hd : s.due = none) (hr : s.rsp = none)
    (hi : s.inflight = f :: q) : 0 < f.wait := by
  refine Nat.pos_of_ne_zero fun h0 => ?_
  have : s.due = some f.word := (due_eq_some s f.word).2 ⟨hr, q, by rw [hi, ← h0]⟩
  simp [hd] at this

theorem runHead_of_not_due {s : State} (h : s.due = none) : runHead s = .next s.tick := by simp [runHead, h]

theorem runHead_of_decode {s : State} {w : CommandWord} {i : Instr} (hd : s.due = some w) (hw : decode w = .ok i) :
    runHead s = exec i s := by simp [runHead, hd, hw]

/-- Nothing is worked on while a response waits on the port (log entry 2). -/
theorem runHead_of_rsp {s : State} {p : Response} (h : s.rsp = some p) : runHead s = .next s := by
  have hd : s.due = none := by simp [State.due, h]
  rw [runHead_of_not_due hd, tick_of_rsp (by simp [h])]

/-- The work on the oldest command moves no command and reads nothing of the host. -/
theorem runHead_frame {s t : State} (h : runHead s = .next t) :
    t.inflight.map Flight.word = s.inflight.map Flight.word ∧ t.inputs = s.inputs := by
  obtain ⟨-, ht⟩ | ⟨w, p, -, -, ht⟩ := runHead_cases s
  · obtain rfl : s.tick = t := by simpa [ht] using h
    simp
  · obtain rfl : { s with rsp := some p } = t := by simpa [ht] using h
    exact ⟨rfl, rfl⟩

theorem runHead_inv {s t : State} (hs : s.Inv) (h : runHead s = .next t) : t.Inv := by
  obtain ⟨hlen, hrsp⟩ := hs
  obtain ⟨-, ht⟩ | ⟨w, p, hw, hp, ht⟩ := runHead_cases s
  · obtain rfl : s.tick = t := by simpa [ht] using h
    refine ⟨by simpa using hlen, fun r hr => ?_⟩
    rw [State.tick_rsp] at hr
    rw [tick_of_rsp (by simp [hr])]
    exact hrsp r hr
  · obtain rfl : { s with rsp := some p } = t := by simpa [ht] using h
    obtain ⟨-, q, hi⟩ := (due_eq_some s w).1 hw
    refine ⟨hlen, fun r hr => ⟨⟨w, 0⟩, q, hi, rfl, ?_⟩⟩
    obtain rfl : p = r := by simpa using hr
    exact hp

/-! ## One step -/

theorem step_of_handshake {s : State} (hr : s.input.rst = false) (hb : s.breaksHandshake = false) :
    step s = runHead s.clockEdge := by simp [step, hr, hb]

/-- A step with a next state is a reset, or the work on the oldest command after the clock edge. -/
theorem step_next_cases {s t : State} (h : step s = .next t) :
    (s.input.rst = true ∧ t = s.resetEdge) ∨ (s.input.rst = false ∧ runHead s.clockEdge = .next t) := by
  obtain ⟨hr, hs⟩ | ⟨-, -, hs⟩ | ⟨hr, -, hs⟩ := step_cases s
  · exact .inl ⟨hr, by simpa [hs, eq_comm] using h⟩
  · simp [hs] at h
  · exact .inr ⟨hr, hs ▸ h⟩

theorem step_inputs {s t : State} (h : step s = .next t) : t.inputs = s.inputs.tail := by
  obtain ⟨-, rfl⟩ | ⟨-, ht⟩ := step_next_cases h
  · rfl
  · exact (runHead_frame ht).2

/-- The queue's words after a step that is no reset (R24). -/
theorem step_words {s t : State} (hr : s.input.rst = false) (h : step s = .next t) :
    t.inflight.map Flight.word =
      (if s.delivered.isSome then s.inflight.tail else s.inflight).map Flight.word ++ s.accepted.toList := by
  obtain ⟨hr', -⟩ | ⟨-, ht⟩ := step_next_cases h
  · simp [hr] at hr'
  · rw [(runHead_frame ht).1, State.clockEdge_inflight, nextQueue_words]

/-- An empty queue with no response on the port meets the invariant (R29). -/
theorem inv_of_empty {s : State} (hi : s.inflight = []) (hr : s.rsp = none) : s.Inv :=
  ⟨by simp [hi], by simp [hr]⟩

/-- Settles O11: the reset state holds no command and no response. -/
theorem resetStateMeetsTheInvariant : Obligations.ResetStateMeetsTheInvariant :=
  ⟨rfl, rfl, inv_of_empty rfl rfl⟩

/-- Settles O12: the clock edge and the work on the oldest command both keep the invariant, and a reset makes it. -/
theorem invariantKeptByEveryStep : Obligations.InvariantKeptByEveryStep := by
  intro s t hs h
  obtain ⟨-, rfl⟩ | ⟨-, ht⟩ := step_next_cases h
  · exact inv_of_empty rfl rfl
  · exact runHead_inv (clockEdge_inv hs) ht

/-- Settles O7: the clock edge moves the queue, and the work on the oldest command changes no word of it. -/
theorem queueIsFirstInFirstOut : Obligations.QueueIsFirstInFirstOut := by
  intro s hr hb
  obtain ⟨t, ht⟩ := runHead_next s.clockEdge
  have hs : step s = .next t := (step_of_handshake hr hb).trans ht
  refine ⟨t, hs, step_words hr hs, fun ha => ?_⟩
  obtain ⟨w, hw⟩ := Option.isSome_iff_exists.1 ha
  exact cmdReady_room s (accepted_cmdReady s w hw).1

/-- Settles O9: of the three cases of a step only the broken handshake is refused. -/
theorem stepStopsOnlyOnABrokenHandshake : Obligations.StepStopsOnlyOnABrokenHandshake := by
  intro s
  rw [← breaksHandshake_iff]
  obtain ⟨hr, hs⟩ | ⟨hr, hb, hs⟩ | ⟨hr, hb, hs⟩ := step_cases s
  · simp [hs, hr]
  · simp [hs, hr, hb]
  · obtain ⟨t, ht⟩ := runHead_next s.clockEdge
    simp [hs, ht, hb]

/-! ## A response on the port stays there (R23) -/

theorem step_rsp_of_waits {s t : State} {p : Response} (hr : s.input.rst = false) (hd : s.input.rspReady = false)
    (hp : s.rsp = some p) (h : step s = .next t) : t.rsp = some p := by
  obtain ⟨hr', -⟩ | ⟨-, ht⟩ := step_next_cases h
  · simp [hr] at hr'
  · have he : s.clockEdge.rsp = some p := (clockEdge_rsp_of_not_delivered (delivered_of_not_rspReady hd)).trans hp
    obtain rfl : s.clockEdge = t := by simpa [runHead_of_rsp he] using ht
    exact he

theorem run_rsp_of_waits (n : Nat) {s t : State} {p : Response} (hw : HostWaits n s) (hp : s.rsp = some p)
    (h : Host.Core.run Sys2Proof.core n s = .next t) : t.rsp = some p := by
  induction n generalizing s with
  | zero =>
    obtain rfl : s = t := Host.Outcome.next.inj h
    exact hp
  | succ n ih =>
    obtain ⟨u, hu, hrun⟩ := run_cases n h
    obtain ⟨hr, hd⟩ := input_of_forall_take hw fun _ _ => ⟨rfl, rfl⟩
    have hwu : HostWaits n u := by
      rw [HostWaits, step_inputs hu]
      exact forall_take_tail hw
    exact ih hwu (step_rsp_of_waits hr hd hp hu) hrun

/-- Settles O8: the two ports in one cycle, and the response held, by induction on the number of cycles. -/
theorem portsFollowTheHandshake : Obligations.PortsFollowTheHandshake := by
  refine ⟨fun s w => ?_, delivered_eq_some, fun n _ _ _ => run_rsp_of_waits n⟩
  rw [accepted_eq_some, presented_eq_some, and_assoc]

/-! ## Responses in the order of the commands (R24, R45) -/

/-- In a step that is no reset, the words that leave the queue are the oldest ones, each answered by the response
delivered. -/
theorem step_answers_oldest {s t : State} (hs : s.Inv) (hr : s.input.rst = false) (h : step s = .next t) :
    ∃ gone : List CommandWord, List.Forall₂ Answers gone s.delivered.toList ∧
      s.inflight.map Flight.word ++ s.accepted.toList = gone ++ t.inflight.map Flight.word := by
  obtain ⟨-, hport⟩ := hs
  have hw := step_words hr h
  cases hd : s.delivered with
  | none => exact ⟨[], .nil, by simp [hw, hd]⟩
  | some p =>
    obtain ⟨f, q, hi, -, hf⟩ := hport p (delivered_rsp s p hd).1
    exact ⟨[f.word], .cons hf .nil, by simp [hw, hd, hi]⟩

theorem acceptedIn_succ {s t : State} (n : Nat) (h : step s = .next t) :
    acceptedIn (n + 1) s = s.accepted.toList ++ acceptedIn n t := by simp [acceptedIn, h]

theorem deliveredIn_succ {s t : State} (n : Nat) (h : step s = .next t) :
    deliveredIn (n + 1) s = s.delivered.toList ++ deliveredIn n t := by simp [deliveredIn, h]

/-- Settles O13, by induction on the number of cycles: each step takes from the queue what it answers. -/
theorem responsesComeInCommandOrder : Obligations.ResponsesComeInCommandOrder := by
  intro n
  induction n with
  | zero => exact fun s hs _ => ⟨[], _, rfl, .nil, by simpa [acceptedIn] using hs.1⟩
  | succ n ih =>
    intro s hs hn
    have hr : s.input.rst = false := input_of_forall_take hn fun _ _ => rfl
    obtain ⟨t, ht⟩ | hstop := (stepStopsOnlyOnABrokenHandshake s).1
    · have hnt : NoResetIn n t := by
        rw [NoResetIn, step_inputs ht]
        exact forall_take_tail hn
      obtain ⟨gone, hgone, hwords⟩ := step_answers_oldest hs hr ht
      obtain ⟨done, rest, hsplit, hdone, hrest⟩ := ih t (invariantKeptByEveryStep s t hs ht) hnt
      refine ⟨gone ++ done, rest, ?_, ?_, hrest⟩
      · rw [acceptedIn_succ n ht, ← List.append_assoc, hwords, List.append_assoc, hsplit, List.append_assoc]
      · rw [deliveredIn_succ n ht]
        exact List.rel_append hgone hdone
    · exact ⟨[], _, rfl, by simp [deliveredIn, hstop], by simpa [acceptedIn, hstop] using hs.1⟩

/-! ## The command a step runs (R24, R60) -/

/-- A placed command is in the hands of a host that holds what it must. -/
theorem withFetchWord_breaksHandshake (s : State) (n w : Nat) : (s.withFetchWord n w).breaksHandshake = false := by
  rw [Bool.eq_false_iff, ne_eq, breaksHandshake_iff]
  rintro ⟨v, hv, hne⟩
  rw [State.withFetchWord_held] at hv
  exact hne ((presented_eq_some _ _).2 (by simp [hv]))

theorem withFetchWord_due (s : State) (n w : Nat) :
    (s.withFetchWord n w).clockEdge.due = some (BitVec.ofNat 104 (w % (1 <<< n))) := by
  have hd : (s.withFetchWord n w).delivered = none := delivered_of_not_rspReady (by simp)
  exact (due_eq_some _ _).2 ⟨clockEdge_rsp_of_not_delivered hd, nextQueue_cons hd (s.withFetchWord_inflight n w)⟩

theorem decode_of_decodeTableWord {n w : Nat} {i : Instr} (h : decodeTableWord n w = some i) :
    decode (BitVec.ofNat 104 (w % (1 <<< n))) = .ok i := by
  unfold decodeTableWord at h
  cases hd : decode (BitVec.ofNat 104 (w % (1 <<< n))) with
  | ok j => simpa [hd, Except.toOption] using h
  | error e => simp [hd, Except.toOption] at h

/-- A step runs the operation the due command's word decodes to, on the state after the clock edge. -/
theorem step_of_due {s : State} {w : CommandWord} {i : Instr} (hr : s.input.rst = false)
    (hb : s.breaksHandshake = false) (hd : s.clockEdge.due = some w) (hw : decode w = .ok i) :
    step s = exec i s.clockEdge := (step_of_handshake hr hb).trans (runHead_of_decode hd hw)

/-- Settles O6: a due command by what it decodes to, a placed one because it is due, and no due command by `tick`. -/
theorem stepRunsTheOldestCommand : Obligations.StepRunsTheOldestCommand := by
  refine ⟨fun s w i => step_of_due, fun s n w i h => ?_, fun s hr hb hd => ?_⟩
  · exact step_of_due (by simp) (withFetchWord_breaksHandshake s n w) (withFetchWord_due s n w)
      (decode_of_decodeTableWord h)
  · refine ⟨s.clockEdge.tick, (step_of_handshake hr hb).trans (runHead_of_not_due hd), by simp, by simp, by simp,
      by simp, fun hp => ?_, fun hp f q hi => ?_⟩
    · rw [tick_of_rsp hp, State.clockEdge_inflight]
    · have hpos := wait_pos_of_not_due hd hp hi
      refine ⟨hpos, tick_inflight_of_wait hp ?_⟩
      rw [Nat.sub_add_cancel hpos]
      exact hi

end Sys2Proof.Machine

/-! PROOFS of the encoding family (30_encoding.md): the decoder against the table of R60, the assembler, the response
word, and the operations that are compositions of others. -/

namespace Sys2Proof.Machine

/-! ## The decoder and the encoder (R56, R57, R60) -/

/-- The encoder writes `op` and the operands where the decoder reads them, and each number is read as its own row. -/
theorem decode_encode (i : Instr) : decode (encode i) = .ok i := by
  unfold decode encode
  rw [commandWord_op, commandWord_a, commandWord_b, commandWord_c]
  cases i <;> rfl

/-- Settles O2: `decode_encode`, for every operation. -/
theorem decodeInvertsEncode : Obligations.DecodeInvertsEncode := decode_encode

/-- An operation is determined by its number and its operands: they make up its command word. -/
theorem instr_eq_of_opcode_of_operands {i j : Instr} (hop : i.opcode = j.opcode) (hargs : i.operands = j.operands) :
    i = j := by
  have henc : encode i = encode j := by rw [encode, encode, hop, hargs]
  simpa [decode_encode] using congrArg decode henc

/-! ## The decoder and the table (R60, R61) -/

/-- A word with the number of a row decodes to the row's operation, with the operands the row's format reads. -/
theorem decode_of_row {row : OpRow} (hrow : row ∈ opTable) {w : CommandWord} (hop : w.op = row.op) :
    ∃ i, decode w = .ok i ∧ i.mnemonic = row.mnemonic ∧ i.opcode = row.op ∧
      i.operands = row.format.fields w.a w.b w.c := by
  unfold decode
  rw [hop]
  fin_cases hrow <;> exact ⟨_, rfl, rfl, rfl, rfl⟩

/-- A word whose number is in no row is rejected (R61). -/
theorem decode_of_no_row {w : CommandWord} (h : ∀ row ∈ opTable, row.op ≠ w.op) :
    decode w = .error (.illegalOp w.op) := by
  have hno : opTable.all (fun row => row.op != w.op) = true := by simpa using h
  unfold decode
  generalize w.op = op at hno ⊢
  dsimp only
  split
  case h_34 => rfl
  all_goals exact absurd hno (by decide)

theorem decode_ok_iff (w : CommandWord) : (∃ i, decode w = .ok i) ↔ ∃ row ∈ opTable, w.op = row.op := by
  constructor
  · rintro ⟨i, hi⟩
    by_contra hno
    rw [decode_of_no_row fun row hrow hop => hno ⟨row, hrow, hop.symm⟩] at hi
    contradiction
  · rintro ⟨row, hrow, hop⟩
    obtain ⟨i, hi, -⟩ := decode_of_row hrow hop
    exact ⟨i, hi⟩

/-- The decoder looks at no field that the format of the word's row does not read (R62). -/
theorem decode_eq_of_fields {row : OpRow} (hrow : row ∈ opTable) {v w : CommandWord} (hv : v.op = row.op)
    (hw : w.op = row.op) (h : row.format.fields v.a v.b v.c = row.format.fields w.a w.b w.c) :
    decode v = decode w := by
  obtain ⟨i, hi, -, hiop, hiargs⟩ := decode_of_row hrow hv
  obtain ⟨j, hj, -, hjop, hjargs⟩ := decode_of_row hrow hw
  rw [hi, hj, instr_eq_of_opcode_of_operands (hiop.trans hjop.symm) (by rw [hiargs, hjargs, h])]

/-- An operation's word, and the row its number stands in, agree on mnemonic, number and operands. -/
theorem row_of_decode {w : CommandWord} {i : Instr} {row : OpRow} (hi : decode w = .ok i) (hrow : row ∈ opTable)
    (hop : w.op = row.op) :
    i.mnemonic = row.mnemonic ∧ i.opcode = row.op ∧ i.operands = row.format.fields w.a w.b w.c := by
  obtain ⟨j, hj, hmn, hjop, hargs⟩ := decode_of_row hrow hop
  obtain rfl : i = j := by simpa [hi] using hj
  exact ⟨hmn, hjop, hargs⟩

/-- Every operation has a row: the one its own command word finds. -/
theorem exists_row (i : Instr) : ∃ row ∈ opTable, row.mnemonic = i.mnemonic ∧ row.op = i.opcode := by
  obtain ⟨row, hrow, hop⟩ := (decode_ok_iff (encode i)).1 ⟨i, decode_encode i⟩
  obtain ⟨hmn, hiop, -⟩ := row_of_decode (decode_encode i) hrow hop
  exact ⟨row, hrow, hmn.symm, hiop.symm⟩

/-! ### Match and mask as command words -/

theorem commandWord_fields (w : CommandWord) : commandWord w.op w.a w.b w.c = w := by
  apply BitVec.eq_of_toNat_eq
  have := w.isLt
  simp only [commandWord_toNat, CommandWord.op, CommandWord.a, CommandWord.b, CommandWord.c,
    BitVec.extractLsb'_toNat, Nat.shiftRight_eq_div_pow]
  omega

theorem commandWord_and (op op' : BitVec 8) (a a' b b' c c' : Word) :
    commandWord op a b c &&& commandWord op' a' b' c' =
      commandWord (op &&& op') (a &&& a') (b &&& b') (c &&& c') := by
  unfold commandWord
  exact BitVec.and_append.trans (congrArg (· ++ (c &&& c'))
    (BitVec.and_append.trans (congrArg (· ++ (b &&& b')) BitVec.and_append)))

theorem opMask_eq : opMask = commandWord (BitVec.allOnes 8) 0 0 0 := by decide

theorem matchBits_eq (row : OpRow) : row.matchBits = commandWord row.op 0 0 0 := by
  apply BitVec.eq_of_toNat_eq
  have := row.op.isLt
  simp [OpRow.matchBits, commandWord_toNat, BitVec.toNat_setWidth, BitVec.toNat_shiftLeft, Nat.shiftLeft_eq]
  omega

/-- The mask keeps `op` and clears the operands. -/
theorem and_opMask (w : CommandWord) : w &&& opMask = commandWord w.op 0 0 0 := by
  conv_lhs => rw [← commandWord_fields w, opMask_eq, commandWord_and]
  simp only [BitVec.and_allOnes, BitVec.and_zero, BitVec.ofNat_eq_ofNat]

theorem and_opMask_eq_matchBits (w : CommandWord) (row : OpRow) :
    w &&& opMask = row.matchBits ↔ w.op = row.op := by
  rw [and_opMask, matchBits_eq]
  exact ⟨fun h => by simpa only [commandWord_op] using congrArg CommandWord.op h, fun h => by rw [h]⟩

/-- Settles O4: the mask compares `op` with the row's number, and the row found is the operation's own. -/
theorem opcodeTableSelectsTheOperation : Obligations.OpcodeTableSelectsTheOperation := by
  unfold Obligations.OpcodeTableSelectsTheOperation
  simp only [and_opMask_eq_matchBits]
  refine ⟨decode_ok_iff, fun w i row hi hrow hop => ?_, exists_row, by decide, rfl, by decide +kernel⟩
  obtain ⟨hmn, hiop, hargs⟩ := row_of_decode hi hrow hop
  exact ⟨hmn, hiop, hop, hargs⟩

/-! ## The one exception (R61, R290) -/

theorem runHead_of_decode_error {s : State} {w : CommandWord} {e : Reject} (hd : s.due = some w)
    (hw : decode w = .error e) : runHead s = .next (s.takeIllegalOp w) := by simp [runHead, hd, hw]

/-- Settles O5: such a word is rejected, the ports look at no word's number, and the work on a rejected one is the
exception. -/
theorem illegalOpcodeAnswersIllegalOp : Obligations.IllegalOpcodeAnswersIllegalOp := by
  intro w hw
  have hdec := decode_of_no_row hw
  refine ⟨hdec, fun s hr hp hc => (accepted_eq_some s w).2 ⟨hr, hp, hc⟩, fun s hr hb hd => ?_⟩
  refine ⟨Config.freeIllegalR s.clockEdge.cycle w, ?_⟩
  exact (step_of_handshake hr hb).trans (runHead_of_decode_error hd hdec)

/-! ## The assembler (R62, R63) -/

/-- The mnemonic of a row stands for the row's number, with as many operands as its format reads. -/
theorem AsmOp.value_mnemonic :
    ∀ row ∈ opTable, (AsmOp.mnemonic row.mnemonic).value = some (row.op, row.format.arity) := by
  decide

/-- Literal operands are written as they stand, and zeros after them. -/
theorem assemble_hex {op : AsmOp} {code : BitVec 8} {most : Nat} (hop : op.value = some (code, most)) {vs : List Word}
    (hlen : vs.length ≤ most) (labels : List (String × Response)) :
    (⟨op, vs.map .hex⟩ : AsmLine).assemble labels =
      some (commandWord code (vs.getD 0 0) (vs.getD 1 0) (vs.getD 2 0)) := by
  have hvs : (vs.map AsmOperand.hex).mapM (AsmOperand.value labels) = some vs := by
    induction vs with
    | nil => rfl
    | cons v vs ih => simp [AsmOperand.value, ih (Nat.le_of_succ_le hlen)]
  simp [AsmLine.assemble, hop, hvs, hlen]

theorem answers_congr {v w : CommandWord} (h : decode v = decode w) (p : Response) : Answers v p ↔ Answers w p := by
  rw [Answers, Answers, h]

/-- Settles O3: the decoder does not look at such a field, and the assembler has no operand for it. -/
theorem unreadFieldsAreIgnored : Obligations.UnreadFieldsAreIgnored := by
  intro row hrow a b c b' c' p
  have hval := AsmOp.value_mnemonic row hrow
  have hans : ∀ x y x' y' : Word, row.format.fields a x y = row.format.fields a x' y' →
      (Answers (commandWord row.op a x y) p ↔ Answers (commandWord row.op a x' y') p) := by
    intro x y x' y' h
    refine answers_congr (decode_eq_of_fields hrow (commandWord_op ..) (commandWord_op ..) ?_) p
    simpa only [commandWord_a, commandWord_b, commandWord_c] using h
  cases hf : row.format with
  | u =>
    rw [hf] at hval hans
    exact ⟨hans _ _ _ _ rfl, assemble_hex hval (vs := [a]) le_rfl []⟩
  | b =>
    rw [hf] at hval hans
    exact ⟨hans _ _ _ _ rfl, assemble_hex hval (vs := [a, b]) le_rfl []⟩
  | t =>
    rw [hf] at hval
    exact assemble_hex hval (vs := [a, b, c]) le_rfl []

/-- Settles O1: closed words, evaluated. -/
theorem sampleCommandWordsDecode : Obligations.SampleCommandWordsDecode := by
  unfold Obligations.SampleCommandWordsDecode
  decide

/-- Settles O19: closed lines, evaluated, and the label's line for whatever `r` its response has. -/
theorem assemblerWritesTheCommandWord : Obligations.AssemblerWritesTheCommandWord :=
  ⟨by decide, by decide, by decide, by decide, fun _ => rfl, fun _ => rfl⟩

/-! ## The response word (R58) -/

theorem Response.word_r (p : Response) : p.word.extractLsb' 0 32 = p.r :=
  BitVec.extractLsb'_append_eq_right (w := 2) (w' := 32)

theorem Response.word_st (p : Response) : p.word.extractLsb' 32 2 = if p.st = .ok then 0#2 else 1#2 := by
  obtain ⟨st, r⟩ := p
  cases st with
  | ok | illegalOp => exact BitVec.extractLsb'_append_eq_left (w := 2) (w' := 32)

/-- Settles O16: `r` is the low part of the word, and the code of the status the high part. -/
theorem responseWordLayout : Obligations.ResponseWordLayout := by
  intro p
  rw [Response.word_r, Response.word_st]
  cases p.st <;> simp

/-! ## Compositions of operations (R64) -/

theorem gives_neg (a : Word) : Gives (.neg a) (fpNeg a) := fun _ => rfl
theorem gives_add (a b : Word) : Gives (.add a b) (fpAdd a b) := fun _ => rfl
theorem gives_sub (a b : Word) : Gives (.sub a b) (fpSub a b) := fun _ => rfl
theorem gives_div (a b : Word) : Gives (.div a b) (fpDiv a b) := fun _ => rfl
theorem gives_sin (a : Word) : Gives (.sin a) (fpSin a) := fun _ => rfl
theorem gives_cos (a : Word) : Gives (.cos a) (fpCos a) := fun _ => rfl
theorem gives_tan (a : Word) : Gives (.tan a) (fpTan a) := fun _ => rfl
theorem gives_log (a : Word) : Gives (.log a) (fpLog Config.cfg a) := fun _ => rfl
theorem gives_logb (a b : Word) : Gives (.logb a b) (fpLogb Config.cfg a b) := fun _ => rfl
theorem gives_log2 (a : Word) : Gives (.log2 a) (fpLog2 Config.cfg a) := fun _ => rfl
theorem gives_log10 (a : Word) : Gives (.log10 a) (fpLog10 Config.cfg a) := fun _ => rfl

/-- Settles O20: the value of a composition is the value of its expansion. -/
theorem expansionsGiveTheSameResult : Obligations.ExpansionsGiveTheSameResult := fun a b =>
  ⟨⟨_, _, gives_neg b, gives_add a _, gives_sub a b⟩,
    ⟨_, _, gives_add a _, gives_sin _, gives_cos a⟩,
    ⟨_, _, _, gives_sin a, gives_cos a, gives_div _ _, gives_tan a⟩,
    ⟨_, _, _, gives_log a, gives_log b, gives_div _ _, gives_logb a b⟩,
    ⟨_, gives_logb a _, gives_log2 a⟩,
    ⟨_, gives_logb a _, gives_log10 a⟩⟩

end Sys2Proof.Machine

/-! PROOFS of the decomposer family (40_decompose_reassemble.md) and of the product and the quotient (42_mul_div.md R126,
R131): the fields of a word, the exact value of what `pack` assembles, and the three datapaths that end in it. -/

namespace Sys2Proof.Machine

/-! ## The fields of a word (R81 to R87) -/

/-- A field of a word, as a number: a quotient and a remainder of the word's number. -/
theorem zeroExtend_extractLsb' (a : Word) (start len : Nat) :
    (a.extractLsb' start len).zeroExtend 32 = BitVec.ofNat 32 (a.toNat / 2 ^ start % 2 ^ len) := by
  apply BitVec.eq_of_toNat_eq
  simp [BitVec.extractLsb'_toNat, Nat.shiftRight_eq_div_pow]

/-- Settles O21: the bits above the sign bit are none, and those below the mantissa field are none. -/
theorem fieldOperations : Obligations.FieldOperations := fun a => by
  have hs : a.toNat / 2 ^ 31 = a.toNat / 2 ^ 31 % 2 ^ 1 := by have := a.isLt; omega
  have hm : a.toNat % 2 ^ 23 = a.toNat / 2 ^ 0 % 2 ^ 23 := by simp
  rw [hs, hm, ← zeroExtend_extractLsb', ← zeroExtend_extractLsb', ← zeroExtend_extractLsb']
  exact ⟨fun _ => rfl, fun _ => rfl, fun _ => rfl, fun _ => rfl⟩

/-- A small integer comes back from its response word (R58, R59). -/
theorem toInt_ofS32 {v : Int} (hl : -2 ^ 31 ≤ v) (hu : v < 2 ^ 31) : (ofS32 v).toInt = v := by
  rw [ofS32, BitVec.toInt_ofInt]
  exact Int.bmod_eq_of_le (by omega) (by omega)

/-- Settles O22: both integers are far inside the 32-bit range, so the response word holds them as they are. -/
theorem signedFieldOperations : Obligations.SignedFieldOperations := fun a => by
  have he := expo_lt a
  obtain ⟨hl, hu⟩ := signedMantissa_bounds a
  refine ⟨⟨_, fun _ => rfl, ?_⟩, ⟨_, fun _ => rfl, ?_⟩⟩
  · rw [toInt_ofS32 (by omega) (by omega), expo_eq]
    omega
  · rw [toInt_ofS32 (by omega) (by omega)]
    refine ⟨?_, by omega, by omega⟩
    change _ = _ * (magnitude a : Int)
    unfold signedMantissa
    split <;> simp

/-- Settles O23: the fields of a concatenation are its parts, and a word is the concatenation of its fields. -/
theorem frompartsAssembles : Obligations.FrompartsAssembles := by
  refine ⟨fun a b c => ⟨_, fun _ => rfl, sgn_pattern _ _ _, ?_, ?_⟩, fun r =>
    ⟨_, _, _, fun _ => rfl, fun _ => rfl, fun _ => rfl, (gives_iff _ _).2 (pattern_of_fieldWords r).symm⟩⟩
  · apply BitVec.eq_of_toNat_eq
    exact (expo_pattern _ _ _).trans (by simp [BitVec.extractLsb'_toNat])
  · apply BitVec.eq_of_toNat_eq
    exact (mant_pattern _ _ _).trans (by simp [BitVec.extractLsb'_toNat])

/-! ## The exact value of a pattern (R10) -/

theorem zpow_mul_pow {i j : Int} {n : Nat} (h : i + n = j) : (2 : Rat) ^ i * 2 ^ n = (2 : Rat) ^ j := by
  rw [← h, zpow_add₀ two_ne_zero, zpow_natCast]

theorem abs_val (r : Word) : |val r| = (absUnits r : Rat) / 2 ^ 149 := by
  rw [val, abs_div, abs_of_pos (by positivity : (0 : Rat) < 2 ^ 149), units]
  split <;> simp

theorem val_of_sgn_false {r : Word} (h : sgn r = false) : val r = |val r| := by
  rw [abs_val, val, units, h]
  simp

theorem val_of_sgn_true {r : Word} (h : sgn r = true) : val r = -|val r| := by
  rw [abs_val, val, units, h]
  simp [neg_div]

theorem ulp_eq (r : Word) : ulp r = (2 : Rat) ^ ((max (expo r) 1 : Nat) - 150 : Int) := by
  rw [ulp, zpow_sub₀ two_ne_zero, zpow_natCast]
  norm_num

/-- The magnitude of a finite nonzero pattern is its normalised significand at its normalised exponent (R90). -/
theorem abs_val_eq_norm {r : Word} (hf : isFinite r = true) (hz : isZero r = false) :
    |val r| = ((norm r).1 : Rat) * (2 : Rat) ^ ((norm r).2 - 150) := by
  obtain ⟨-, -, hl, -, h⟩ := norm_spec r hf hz
  have hq : ((norm r).1 : Rat) * 2 ^ ((norm r).2 + 22).toNat = absUnits r * 2 ^ 23 := by exact_mod_cast h
  have he : (2 : Rat) ^ ((norm r).2 + 22).toNat = (2 : Rat) ^ ((norm r).2 - 150) * 2 ^ 172 := by
    rw [← zpow_natCast]
    exact (zpow_mul_pow (by omega)).symm
  rw [he] at hq
  rw [abs_val, div_eq_iff (by positivity)]
  linarith

theorem abs_val_pos {r : Word} (hf : isFinite r = true) (hz : isZero r = false) : 0 < |val r| := by
  have := (norm_spec r hf hz).1
  rw [abs_val_eq_norm hf hz]
  positivity

theorem isZero_of_expo_ne {r : Word} (h : expo r ≠ 0) : isZero r = false :=
  isZero_of_expo_pos (Nat.one_le_iff_ne_zero.2 h)

theorem val_pos_iff {r : Word} (hf : isFinite r = true) (hz : isZero r = false) : 0 < val r ↔ sgn r = false := by
  have hp := abs_val_pos hf hz
  cases hs : sgn r
  · rw [val_of_sgn_false hs]
    simp [hp]
  · rw [val_of_sgn_true hs]
    simp

theorem val_neg_iff {r : Word} (hf : isFinite r = true) (hz : isZero r = false) : val r < 0 ↔ sgn r = true := by
  have hp := abs_val_pos hf hz
  cases hs : sgn r
  · rw [val_of_sgn_false hs]
    simp
  · rw [val_of_sgn_true hs]
    simp [hp]

/-- A normal pattern has the sign of the number that is its value. -/
theorem sgn_of_val_eq {r : Word} {s : Bool} {y : Rat} (hf : isFinite r = true) (hn : expo r ≠ 0) (h : val r = y)
    (hp : 0 < y ↔ s = false) : sgn r = s := by
  rw [← h, val_pos_iff hf (isZero_of_expo_ne hn)] at hp
  cases s
  · exact hp.2 rfl
  · simpa using hp

/-- Two values of the same sign and the same magnitude, up to a positive factor, are the same up to it. -/
theorem val_eq_val_mul {v a : Word} {c : Rat} (hs : sgn v = sgn a) (h : |val v| = |val a| * c) : val v = val a * c := by
  cases ha : sgn a
  · rw [val_of_sgn_false (hs.trans ha), val_of_sgn_false ha, h]
  · rw [val_of_sgn_true (hs.trans ha), val_of_sgn_true ha, h, neg_mul]

/-- A value and a product of the same sign differ by what their magnitudes differ by. -/
theorem abs_sub_eq_of_sgn {v : Word} {y : Rat} (hp : 0 < y ↔ sgn v = false) (hn : y < 0 ↔ sgn v = true) :
    |val v - y| = |(|val v| - |y|)| := by
  cases hs : sgn v
  · rw [val_of_sgn_false hs, abs_abs, abs_of_pos (hp.2 hs)]
  · rw [val_of_sgn_true hs, abs_neg, abs_abs, abs_of_neg (hn.2 hs), ← abs_neg]
    congr 1
    ring

/-! ## The exact value of what `pack` assembles (R88)

`pack s m e` stands for `m * 2^(e - 150)`. Below the normal range it keeps the quotient of `m` by a power of two, `c` in
the lemmas, and the unit of the result is that many times larger. -/

/-- What the number `pack` stands for is to the value it gives, from the significand's bounds alone. -/
theorem pack_scale (s : Bool) {m : Nat} {e : Int} (hm : 2 ^ 23 ≤ m) (hm' : m < 2 ^ 24) (he : e < 255) :
    ∃ c : Nat, 1 ≤ c ∧ (1 ≤ e → c = 1) ∧ ulp (pack s m e) = c * (2 : Rat) ^ (e - 150) ∧
      |val (pack s m e)| = (m / c : Nat) * ulp (pack s m e) := by
  have hu : ulp (pack s m e) = ((2 ^ (1 - e).toNat : Nat) : Rat) * (2 : Rat) ^ (e - 150) := by
    have hx := expo_pack s m e
    rw [ulp_eq, Nat.cast_pow, Nat.cast_ofNat, mul_comm]
    exact (zpow_mul_pow (by omega)).symm
  refine ⟨2 ^ (1 - e).toNat, Nat.one_le_two_pow, fun h1 => ?_, hu, ?_⟩
  · rw [show (1 - e).toNat = 0 by omega, pow_zero]
  · have hval := absUnits_pack s m e hm hm' he
    have hx := expo_pack s m e
    rw [abs_val, div_eq_iff (by positivity), mul_assoc]
    split at hval
    · have hu1 : ulp (pack s m e) * 2 ^ 149 = 2 ^ (e.toNat - 1) := by
        rw [ulp_eq, ← zpow_natCast _ (e.toNat - 1)]
        exact zpow_mul_pow (by omega)
      rw [hval, hu1, show (1 - e).toNat = 0 by omega, pow_zero, Nat.div_one]
      push_cast
      rfl
    · have hu1 : ulp (pack s m e) * 2 ^ 149 = 1 := by
        rw [ulp_eq, ← zpow_zero 2]
        exact zpow_mul_pow (by omega)
      rw [hval, hu1, mul_one]

theorem exponent_of_normal_pack {s : Bool} {m : Nat} {e : Int} (hf : isFinite (pack s m e) = true)
    (hn : expo (pack s m e) ≠ 0) : 1 ≤ e ∧ e < 255 := by
  have := expo_pack s m e
  rw [isFinite_pack, decide_eq_true_iff] at hf
  omega

theorem isInf_pack (s : Bool) (m : Nat) (e : Int) : isInf (pack s m e) = true ↔ 255 ≤ e := by
  have hf := isFinite_pack s m e
  constructor
  · intro hi
    by_contra h
    rw [decide_eq_true (by omega)] at hf
    exact Bool.false_ne_true ((isInf_of_isFinite hf).symm.trans hi)
  · intro h
    by_contra hi
    have := isFinite_of_not (isNan_pack s m e) (Bool.eq_false_iff.2 hi)
    rw [hf, decide_eq_true_iff] at this
    omega

theorem abs_val_pack_of_normal (s : Bool) {m : Nat} {e : Int} (hm : 2 ^ 23 ≤ m) (hm' : m < 2 ^ 24) (h1 : 1 ≤ e)
    (he : e < 255) : ulp (pack s m e) = (2 : Rat) ^ (e - 150) ∧ |val (pack s m e)| = m * (2 : Rat) ^ (e - 150) := by
  obtain ⟨c, -, hc1, hu, hv⟩ := pack_scale s hm hm' he
  rw [hv, hu, hc1 h1]
  simp

/-- Below the normal range `pack` truncates the magnitude to a multiple of `2^-149`. -/
theorem abs_val_pack_of_subnormal (s : Bool) {m : Nat} {e : Int} (hm : 2 ^ 23 ≤ m) (hm' : m < 2 ^ 24) (h1 : e < 1) :
    |val (pack s m e)| = (⌊(m : Rat) * (2 : Rat) ^ (e - 150) * 2 ^ 149⌋ : Rat) / 2 ^ 149 := by
  have hk : (2 : Rat) ^ (e - 150) * 2 ^ 149 = 1 / ((2 ^ (1 - e).toNat : Nat) : Rat) := by
    rw [eq_div_iff (by positivity), Nat.cast_pow, Nat.cast_ofNat, zpow_mul_pow rfl, ← zpow_zero 2]
    exact zpow_mul_pow (by omega)
  rw [abs_val, absUnits_pack _ _ _ hm hm' (by omega), if_neg (by omega), mul_assoc, hk, mul_one_div,
    Rat.floor_natCast_div_natCast]
  rfl

/-- A significand that does not exceed `x` gives a value that does not exceed what `x` stands for. -/
theorem abs_val_pack_le (s : Bool) {m : Nat} {e : Int} {x : Rat} (hm : 2 ^ 23 ≤ m) (hm' : m < 2 ^ 24) (he : e < 255)
    (h : (m : Rat) ≤ x) : |val (pack s m e)| ≤ x * (2 : Rat) ^ (e - 150) := by
  obtain ⟨c, -, -, hu, hv⟩ := pack_scale s hm hm' he
  have hk : ((m / c : Nat) : Rat) * c ≤ m := by exact_mod_cast Nat.div_mul_le_self m c
  rw [hv, hu, ← mul_assoc]
  gcongr
  exact hk.trans h

/-- A significand less than 1 above `x` gives a value less than one ulp above what `x` stands for. -/
theorem abs_val_pack_lt (s : Bool) {m : Nat} {e : Int} {x : Rat} (hm : 2 ^ 23 ≤ m) (hm' : m < 2 ^ 24) (he : e < 255)
    (h : (m : Rat) < x + 1) : |val (pack s m e)| < x * (2 : Rat) ^ (e - 150) + ulp (pack s m e) := by
  obtain ⟨c, hc, -, hu, hv⟩ := pack_scale s hm hm' he
  have hc' : (1 : Rat) ≤ c := by exact_mod_cast hc
  have hk : ((m / c : Nat) : Rat) * c ≤ m := by exact_mod_cast Nat.div_mul_le_self m c
  rw [hv, hu, ← mul_assoc, ← add_mul]
  gcongr
  linarith

/-- A significand less than `d >= 1` below `x` gives a value less than `d` ulps below what `x` stands for. -/
theorem lt_abs_val_pack_add (s : Bool) {m : Nat} {e : Int} {x d : Rat} (hm : 2 ^ 23 ≤ m) (hm' : m < 2 ^ 24)
    (he : e < 255) (hd : 1 ≤ d) (h : x < m + d) :
    x * (2 : Rat) ^ (e - 150) < |val (pack s m e)| + d * ulp (pack s m e) := by
  obtain ⟨c, hc, -, hu, hv⟩ := pack_scale s hm hm' he
  have hc' : (1 : Rat) ≤ c := by exact_mod_cast hc
  have hk : (m : Rat) + 1 ≤ ((m / c : Nat) : Rat) * c + c := by exact_mod_cast Nat.lt_div_mul_add hc
  have hdc : 0 ≤ (d - 1) * (c - 1) := mul_nonneg (by linarith) (by linarith)
  rw [hv, hu, ← mul_assoc, ← mul_assoc, ← add_mul]
  gcongr
  linarith

/-- Of a significand in `[2^23, 2^24)`, the exponents from `k` on are those of the magnitudes from `2^(k - 127)` on. -/
theorem le_exponent_iff {x : Rat} {e : Int} (k : Int) (hx : 2 ^ 23 ≤ x) (hx' : x < 2 ^ 24) :
    k ≤ e ↔ (2 : Rat) ^ (k - 127) ≤ x * (2 : Rat) ^ (e - 150) := by
  constructor
  · intro h
    calc (2 : Rat) ^ (k - 127) ≤ 2 ^ (e - 127) := zpow_le_zpow_right₀ one_le_two (by omega)
      _ = (2 : Rat) ^ (e - 150) * 2 ^ 23 := (zpow_mul_pow (by omega)).symm
      _ ≤ x * (2 : Rat) ^ (e - 150) := by rw [mul_comm]; gcongr
  · intro h
    by_contra hlt
    have : x * (2 : Rat) ^ (e - 150) < 2 ^ (k - 127) := by
      calc x * (2 : Rat) ^ (e - 150) < (2 : Rat) ^ (e - 150) * 2 ^ 24 := by rw [mul_comm]; gcongr
        _ = 2 ^ (e - 126) := zpow_mul_pow (by omega)
        _ ≤ 2 ^ (k - 127) := zpow_le_zpow_right₀ one_le_two (by omega)
    linarith

theorem two_mul_zpow_le {i j : Int} (h : i < j) : 2 * (2 : Rat) ^ (i - 150) ≤ (2 : Rat) ^ (j - 150) := by
  rw [← zpow_one_add₀ two_ne_zero]
  exact zpow_le_zpow_right₀ one_le_two (by omega)

theorem norm_of_normal {r : Word} (h : expo r ≠ 0) : norm r = (mant r + 2 ^ 23, (expo r : Int)) := if_pos h

/-- A normal pattern is what `pack` assembles of its own fields (R88). -/
theorem pack_fields {r : Word} (hf : isFinite r = true) (hn : expo r ≠ 0) :
    pack (sgn r) (mant r + 2 ^ 23) (expo r) = r := by
  have he := expo_lt r
  have hm := mant_lt r
  have hf' := (isFinite_iff r).1 hf
  unfold pack
  rw [if_neg (by omega), if_pos (by omega)]
  refine eq_of_fields (sgn_pattern _ _ _) ?_ ?_
  · rw [expo_pattern]; omega
  · rw [mant_pattern]; omega

/-- A normal pattern whose magnitude is `x * 2^(e - 150)` has the significand `x` and is `pack` of it and `e`. The bound on
`x` is that of a significand, or half a unit less: no pattern lies in that half unit. -/
theorem eq_pack_of_abs_val {r : Word} (hf : isFinite r = true) (hn : expo r ≠ 0) {x : Rat} {e : Int}
    (hx : 2 ^ 23 - 1 / 2 < x) (hx' : x < 2 ^ 24) (h : |val r| = x * (2 : Rat) ^ (e - 150)) :
    x = (mant r + 2 ^ 23 : Nat) ∧ r = pack (sgn r) (mant r + 2 ^ 23) e := by
  have hz := isZero_of_expo_ne hn
  have hmr := mant_lt r
  have hm1 : (2 ^ 23 : Rat) ≤ (mant r + 2 ^ 23 : Nat) := by exact_mod_cast Nat.le_add_left _ _
  have hm2 : ((mant r + 2 ^ 23 : Nat) : Rat) + 1 ≤ 2 ^ 24 := by exact_mod_cast (by omega : mant r + 2 ^ 23 + 1 ≤ 2 ^ 24)
  have hr := abs_val_eq_norm hf hz
  rw [h, norm_of_normal hn] at hr
  have hpe : (0 : Rat) < 2 ^ (e - 150) := by positivity
  have hpr : (0 : Rat) < 2 ^ ((expo r : Int) - 150) := by positivity
  have he : (expo r : Int) = e := by
    rcases lt_trichotomy (expo r : Int) e with hlt | heq | hgt
    · have := two_mul_zpow_le hlt
      nlinarith
    · exact heq
    · have := two_mul_zpow_le hgt
      nlinarith
  subst he
  exact ⟨mul_right_cancel₀ hpr.ne' hr, (pack_fields hf hn).symm⟩

/-! ## NORMMAN, NORMEXP and SCALEB (R90 to R93) -/

theorem gives_normman_iff {a m : Word} : Gives (.normman a) m ↔ m = normMan a := gives_iff _ _

theorem gives_normexp_iff {a e : Word} : Gives (.normexp a) e ↔ e = normExp a := gives_iff _ _

theorem gives_scaleb_iff {a b v : Word} : Gives (.scaleb a b) v ↔ v = fpScaleb a (asS32 b) := gives_iff _ _

theorem normMan_toNat {a : Word} (hf : isFinite a = true) (hz : isZero a = false) : (normMan a).toNat = (norm a).1 := by
  have := (norm_spec a hf hz).2.1
  rw [normMan, hz, if_neg (by simp), if_neg ((isFinite_iff a).1 hf), BitVec.toNat_ofNat]
  omega

theorem normExp_toInt {a : Word} (hf : isFinite a = true) (hz : isZero a = false) : (normExp a).toInt = (norm a).2 := by
  obtain ⟨-, -, hl, hu, -⟩ := norm_spec a hf hz
  rw [normExp, hz, if_neg (by simp), if_neg ((isFinite_iff a).1 hf), toInt_ofS32 (by omega) (by omega)]

/-- Settles O24: `norm` gives the exact magnitude, and its two parts fit their response words. -/
theorem normalizedSignificandAndExponent : Obligations.NormalizedSignificandAndExponent := fun a => by
  refine ⟨fun hz => ?_, fun he => ?_, fun hf hz => ⟨_, _, fun _ => rfl, fun _ => rfl, ?_⟩⟩
  · exact ⟨gives_normman_iff.2 (if_pos hz).symm, gives_normexp_iff.2 (if_pos hz).symm⟩
  · have hz : ¬ isZero a = true := by simp [isZero, he]
    exact ⟨gives_normman_iff.2 ((if_neg hz).trans (if_pos he)).symm,
      gives_normexp_iff.2 ((if_neg hz).trans (if_pos he)).symm⟩
  · rw [normMan_toNat hf hz, normExp_toInt hf hz]
    obtain ⟨hm, hm', hl, hu, -⟩ := norm_spec a hf hz
    exact ⟨hm, hm', hl, hu, abs_val_eq_norm hf hz, fun hn => by rw [norm_of_normal hn]⟩

theorem fpScaleb_of_isNan {x : Word} (n : Int) (h : isNan x = true) : fpScaleb x n = Pat.cnan := if_pos h

theorem fpScaleb_of_isInf_or_isZero {x : Word} (n : Int) (h : isInf x = true ∨ isZero x = true) : fpScaleb x n = x := by
  have hn : isNan x = false := by
    rcases h with h | h
    · simp [isNan, ((isInf_iff x).1 h).2]
    · simp [isNan, ((isZero_iff x).1 h).2]
  rw [fpScaleb, hn, if_neg (by simp), if_pos (by simpa using h)]

theorem fpScaleb_of_finite {x : Word} (n : Int) (hf : isFinite x = true) (hz : isZero x = false) :
    fpScaleb x n = pack (sgn x) (norm x).1 ((norm x).2 + n) := by
  rw [fpScaleb, isNan_of_isFinite hf, isInf_of_isFinite hf, hz, if_neg (by simp), if_neg (by simp)]

/-- Settles O25: `pack` gets the exact magnitude's own significand and exponent, so its three ranges are those of R93. -/
theorem scalebIsExactScaling : Obligations.ScalebIsExactScaling := fun a b => by
  refine ⟨fun h => ?_, fun h => ?_, fun hf hz => ⟨_, fun _ => rfl, ?_⟩⟩
  · exact gives_scaleb_iff.2 (fpScaleb_of_isNan _ h).symm
  · exact gives_scaleb_iff.2 (fpScaleb_of_isInf_or_isZero _ h).symm
  · rw [fpScaleb_of_finite _ hf hz, asS32]
    obtain ⟨hm, hm', -⟩ := norm_spec a hf hz
    have hq : (2 ^ 23 : Rat) ≤ (norm a).1 := by exact_mod_cast hm
    have hq' : ((norm a).1 : Rat) < 2 ^ 24 := by exact_mod_cast hm'
    have hX : |val a| * (2 : Rat) ^ b.toInt = (norm a).1 * (2 : Rat) ^ ((norm a).2 + b.toInt - 150) := by
      rw [abs_val_eq_norm hf hz, mul_assoc, ← zpow_add₀ two_ne_zero]
      congr 2
      omega
    have hinf := le_exponent_iff (e := (norm a).2 + b.toInt) 255 hq hq'
    have hnormal := le_exponent_iff (e := (norm a).2 + b.toInt) 1 hq hq'
    rw [← hX] at hinf hnormal
    refine ⟨sgn_pack _ _ _, fun h => ?_, fun hlo hhi => ?_, fun hlt => ?_⟩
    · exact (isInf_pack _ _ _).2 (hinf.2 h)
    · have h255 : (norm a).2 + b.toInt < 255 := by
        by_contra hc
        exact absurd (hinf.1 (by omega)) (not_le.2 hhi)
      refine ⟨by rw [isFinite_pack, decide_eq_true h255], val_eq_val_mul (sgn_pack _ _ _) ?_⟩
      rw [hX, (abs_val_pack_of_normal _ hm hm' (hnormal.2 hlo) h255).2]
    · have h1 : (norm a).2 + b.toInt < 1 := by
        by_contra hc
        exact absurd (hnormal.1 (by omega)) (not_le.2 hlt)
      refine ⟨by rw [isFinite_pack, decide_eq_true (by omega)], ?_⟩
      rw [hX, abs_val_pack_of_subnormal _ hm hm' h1]

/-! ## The multiplier (R126) -/

theorem val_mul_pos_iff {a b : Word} (ha : isFinite a = true) (hza : isZero a = false) (hb : isFinite b = true)
    (hzb : isZero b = false) : 0 < val a * val b ↔ xorSign a b = false := by
  rw [mul_pos_iff, val_pos_iff ha hza, val_pos_iff hb hzb, val_neg_iff ha hza, val_neg_iff hb hzb, xorSign]
  cases sgn a <;> cases sgn b <;> simp

theorem val_mul_neg_iff {a b : Word} (ha : isFinite a = true) (hza : isZero a = false) (hb : isFinite b = true)
    (hzb : isZero b = false) : val a * val b < 0 ↔ xorSign a b = true := by
  rw [mul_neg_iff, val_pos_iff ha hza, val_pos_iff hb hzb, val_neg_iff ha hza, val_neg_iff hb hzb, xorSign]
  cases sgn a <;> cases sgn b <;> simp

/-- What R126 keeps of the product `P` of two significands by its first shift: the quotient by `2^23`, upwards where the
product is negative. -/
def keptProduct (s : Bool) (P : Nat) : Nat := if s then (P + (2 ^ 23 - 1)) / 2 ^ 23 else P / 2 ^ 23

theorem keptProduct_lt {s : Bool} {P : Nat} (h : P ≤ (2 ^ 24 - 1) * (2 ^ 24 - 1)) : keptProduct s P < 2 ^ 25 := by
  unfold keptProduct
  split <;> omega

/-- The floored shift of the signed product: its sign is the product's, its magnitude the kept product (D18). -/
theorem signedNorm_mul_shiftRight (a b : Word) :
    (signedNorm a * signedNorm b) >>> (23 : Nat) =
      if xorSign a b then -(keptProduct (xorSign a b) ((norm a).1 * (norm b).1) : Int)
      else keptProduct (xorSign a b) ((norm a).1 * (norm b).1) := by
  have hprod : signedNorm a * signedNorm b =
      if xorSign a b then -(((norm a).1 * (norm b).1 : Nat) : Int) else ((norm a).1 * (norm b).1 : Nat) := by
    unfold signedNorm xorSign
    cases sgn a <;> cases sgn b <;> simp
  rw [Int.shiftRight_eq_div_pow, hprod]
  unfold keptProduct
  split <;> omega

/-- The multiplier through the value of its first shift. With Mathlib the model's shift counts by an integer, which is the
shift by that natural number. -/
theorem mulDatapath_of_shiftRight {a b : Word} {man : Int} (h : (signedNorm a * signedNorm b) >>> (23 : Nat) = man) :
    mulDatapath a b =
      if man.natAbs.testBit 24 || man.natAbs == 0x2000000 then
        pack (decide (man < 0)) (man.natAbs >>> 1) ((norm a).2 + (norm b).2 - 127 + 1)
      else pack (decide (man < 0)) man.natAbs ((norm a).2 + (norm b).2 - 127) := by
  have hshift (z : Int) : z >>> (23 : Int) = z >>> (23 : Nat) := Int.shiftRight_natCast_right z 23
  subst h
  simp only [mulDatapath, hshift]

theorem significand_mul_bounds {a b : Word} (ha : isFinite a = true) (hza : isZero a = false) (hb : isFinite b = true)
    (hzb : isZero b = false) :
    2 ^ 46 ≤ (norm a).1 * (norm b).1 ∧ (norm a).1 * (norm b).1 ≤ (2 ^ 24 - 1) * (2 ^ 24 - 1) := by
  obtain ⟨hla, hua, -⟩ := norm_spec a ha hza
  obtain ⟨hlb, hub, -⟩ := norm_spec b hb hzb
  exact ⟨(Nat.pow_add 2 23 23).le.trans (Nat.mul_le_mul hla hlb), Nat.mul_le_mul (by omega) (by omega)⟩

/-- The test of R126 is for a kept product of 25 bits: `2^25` itself, which would have 26, does not occur. -/
theorem testBit_24_or_eq {k : Nat} (h : k < 2 ^ 25) : (k.testBit 24 || k == 0x2000000) = decide (2 ^ 24 ≤ k) := by
  have hne : (k == 0x2000000) = false := beq_false_of_ne (by omega)
  rw [hne, Bool.or_false, Nat.testBit_eq_decide_div_mod_eq, decide_eq_decide]
  omega

/-- The multiplier packs the kept product as it is, or without its lowest bit where it has 25 bits. -/
theorem fpMul_of_finite {a b : Word} (ha : isFinite a = true) (hza : isZero a = false) (hb : isFinite b = true)
    (hzb : isZero b = false) : fpMul a b =
      if 2 ^ 24 ≤ keptProduct (xorSign a b) ((norm a).1 * (norm b).1) then
        pack (xorSign a b) (keptProduct (xorSign a b) ((norm a).1 * (norm b).1) / 2)
          ((norm a).2 + (norm b).2 - 127 + 1)
      else pack (xorSign a b) (keptProduct (xorSign a b) ((norm a).1 * (norm b).1)) ((norm a).2 + (norm b).2 - 127) := by
  have hmul : fpMul a b = mulDatapath a b := by
    rcases fpMul_cases ha hb with ⟨h | h, -⟩ | ⟨-, -, h⟩
    · simp [h] at hza
    · simp [h] at hzb
    · exact h
  obtain ⟨hlo, hhi⟩ := significand_mul_bounds ha hza hb hzb
  rw [hmul, mulDatapath_of_shiftRight (signedNorm_mul_shiftRight a b)]
  generalize (norm a).1 * (norm b).1 = P at *
  generalize xorSign a b = s
  have hlt := keptProduct_lt (s := s) hhi
  have hpos : (0 : Int) < keptProduct s P := by unfold keptProduct; split <;> omega
  generalize keptProduct s P = k at hlt hpos
  have habs : (if s then -(k : Int) else k).natAbs = k := by split <;> simp
  have hsign : decide ((if s then -(k : Int) else k) < 0) = s := by
    cases s
    · simp
    · simpa using hpos
  simp only [habs, hsign, testBit_24_or_eq hlt, decide_eq_true_eq, Nat.shiftRight_eq_div_pow, pow_one]

theorem abs_val_mul {a b : Word} (ha : isFinite a = true) (hza : isZero a = false) (hb : isFinite b = true)
    (hzb : isZero b = false) : |val a * val b| =
      (((norm a).1 * (norm b).1 : Nat) : Rat) / (2 ^ 23 : Nat) * (2 : Rat) ^ ((norm a).2 + (norm b).2 - 127 - 150) := by
  have he : (2 : Rat) ^ ((norm a).2 - 150) * (2 : Rat) ^ ((norm b).2 - 150) * 2 ^ 23 =
      (2 : Rat) ^ ((norm a).2 + (norm b).2 - 127 - 150) := by
    rw [← zpow_add₀ two_ne_zero]
    exact zpow_mul_pow (by omega)
  rw [abs_mul, abs_val_eq_norm ha hza, abs_val_eq_norm hb hzb, ← he]
  push_cast
  ring

/-- How the significand `m` that the multiplier packs comes from the exact one, `x`, for the sign `s` and the product `P` of
the operands' significands. Rounding a negative product up can carry into bit 24, so `x` may be below `2^23`, by less than
half a unit. -/
structure RoundedProduct (s : Bool) (P : Nat) (x : Rat) (m : Nat) : Prop where
  lower : 2 ^ 23 ≤ m
  upper : m < 2 ^ 24
  exact_lower : 2 ^ 23 - 1 / 2 < x
  exact_upper : x < 2 ^ 24
  pos : s = false → (m : Int) = ⌊x⌋
  neg_upper : s = true → x ≤ 2 ^ 24 - 1
  neg_small : s = true → P < 2 ^ 47 → (m : Int) = ⌈x⌉
  neg_large : s = true → 2 ^ 47 ≤ P → (m : Int) = ⌈2 * x⌉ / 2

/-- A kept product of 24 bits is packed as it is, with `x = P / 2^23`. -/
theorem roundedProduct_of_lt {s : Bool} {P : Nat} (hlo : 2 ^ 46 ≤ P) (h : keptProduct s P < 2 ^ 24) :
    RoundedProduct s P ((P : Rat) / (2 ^ 23 : Nat)) (keptProduct s P) := by
  have hP : P < 2 ^ 47 := by unfold keptProduct at h; split at h <;> omega
  have hq : (2 ^ 46 : Rat) ≤ P := by exact_mod_cast hlo
  have hq' : (P : Rat) < 2 ^ 47 := by exact_mod_cast hP
  exact {
    lower := by unfold keptProduct; split <;> omega
    upper := h
    exact_lower := by rw [lt_div_iff₀ (by positivity)]; push_cast; linarith
    exact_upper := by rw [div_lt_iff₀ (by positivity)]; push_cast; linarith
    pos := by
      rintro rfl
      rw [Rat.floor_natCast_div_natCast]
      rfl
    neg_upper := by
      rintro rfl
      rw [keptProduct, if_pos rfl] at h
      have hup : (P : Rat) + 2 ^ 23 ≤ 2 ^ 47 := by exact_mod_cast (by omega : P + 2 ^ 23 ≤ 2 ^ 47)
      rw [div_le_iff₀ (by positivity)]
      push_cast
      linarith
    neg_small := by
      rintro rfl -
      rw [Rat.ceil_natCast_div_natCast, keptProduct, if_pos rfl]
      omega
    neg_large := fun _ hP' => absurd hP' (by omega) }

/-- Of a kept product of 25 bits the lowest is dropped, and `x = P / 2^24`. -/
theorem roundedProduct_of_le {s : Bool} {P : Nat} (hhi : P ≤ (2 ^ 24 - 1) * (2 ^ 24 - 1)) (h : 2 ^ 24 ≤ keptProduct s P) :
    RoundedProduct s P ((P : Rat) / (2 ^ 24 : Nat)) (keptProduct s P / 2) := by
  have hlt := keptProduct_lt (s := s) hhi
  have hP : 2 ^ 47 < P + 2 ^ 23 := by unfold keptProduct at h; split at h <;> omega
  have hq : (2 ^ 47 : Rat) < P + 2 ^ 23 := by exact_mod_cast hP
  have hq' : (P : Rat) + 2 ^ 25 ≤ 2 ^ 48 + 1 := by exact_mod_cast (by omega : P + 2 ^ 25 ≤ 2 ^ 48 + 1)
  exact {
    lower := by omega
    upper := by omega
    exact_lower := by rw [lt_div_iff₀ (by positivity)]; push_cast; linarith
    exact_upper := by rw [div_lt_iff₀ (by positivity)]; push_cast; linarith
    pos := by
      rintro rfl
      rw [Rat.floor_natCast_div_natCast, keptProduct, if_neg (by simp)]
      omega
    neg_upper := fun _ => by rw [div_le_iff₀ (by positivity)]; push_cast; linarith
    neg_small := by
      rintro rfl hs
      rw [keptProduct, if_pos rfl] at h
      rw [Rat.ceil_natCast_div_natCast, keptProduct, if_pos rfl]
      omega
    neg_large := by
      rintro rfl -
      have hx : 2 * ((P : Rat) / (2 ^ 24 : Nat)) = (P : Rat) / (2 ^ 23 : Nat) := by
        push_cast
        ring
      rw [hx, Rat.ceil_natCast_div_natCast, keptProduct, if_pos rfl]
      omega }

/-- The product is packed from a significand and an exponent whose exact counterpart is the exact product. -/
theorem fpMul_spec {a b : Word} (ha : isFinite a = true) (hza : isZero a = false) (hb : isFinite b = true)
    (hzb : isZero b = false) : ∃ (m : Nat) (e : Int) (x : Rat), fpMul a b = pack (xorSign a b) m e ∧
      RoundedProduct (xorSign a b) ((norm a).1 * (norm b).1) x m ∧ |val a * val b| = x * (2 : Rat) ^ (e - 150) := by
  obtain ⟨hlo, hhi⟩ := significand_mul_bounds ha hza hb hzb
  rw [fpMul_of_finite ha hza hb hzb, abs_val_mul ha hza hb hzb]
  split
  · next h =>
    refine ⟨_, _, _, rfl, roundedProduct_of_le hhi h, ?_⟩
    rw [← zpow_mul_pow (n := 1) (add_sub_right_comm _ 1 150).symm]
    push_cast
    ring
  · next h => exact ⟨_, _, _, rfl, roundedProduct_of_lt hlo (by omega), rfl⟩

/-- A product significand that is a natural number is packed unrounded. -/
theorem RoundedProduct.eq_of_exact {s : Bool} {P k m : Nat} (h : RoundedProduct s P k m) : m = k := by
  cases s with
  | false =>
    have := h.pos rfl
    rw [Int.floor_natCast] at this
    omega
  | true =>
    by_cases hP : P < 2 ^ 47
    · have := h.neg_small rfl hP
      rw [Int.ceil_natCast] at this
      omega
    · have := h.neg_large rfl (by omega)
      rw [show (2 * k : Rat) = ((2 * k : Nat) : Rat) by push_cast; rfl, Int.ceil_natCast] at this
      omega

/-- Rounding a product's significand moves it by less than 1, and not upwards where the product is positive. -/
theorem RoundedProduct.bounds {s : Bool} {P m : Nat} {x : Rat} (h : RoundedProduct s P x m) :
    (m : Rat) < x + 1 ∧ x < m + 1 ∧ (s = false → (m : Rat) ≤ x) := by
  cases s with
  | false =>
    have hm : (m : Rat) = (⌊x⌋ : Int) := by exact_mod_cast h.pos rfl
    have := Int.floor_le x
    have := Int.lt_floor_add_one x
    exact ⟨by linarith, by linarith, fun _ => by linarith⟩
  | true =>
    by_cases hP : P < 2 ^ 47
    · have hm : (m : Rat) = (⌈x⌉ : Int) := by exact_mod_cast h.neg_small rfl hP
      have := Int.le_ceil x
      have := Int.ceil_lt_add_one x
      exact ⟨by linarith, by linarith, by simp⟩
    · have hm := h.neg_large rfl (by omega)
      have hlo : (2 * m : Rat) ≤ (⌈2 * x⌉ : Int) := by exact_mod_cast (by omega : (2 * m : Int) ≤ ⌈2 * x⌉)
      have hhi : ((⌈2 * x⌉ : Int) : Rat) ≤ 2 * m + 1 := by exact_mod_cast (by omega : ⌈2 * x⌉ ≤ (2 * m + 1 : Int))
      have := Int.le_ceil (2 * x)
      have := Int.ceil_lt_add_one (2 * x)
      exact ⟨by linarith, by linarith, by simp⟩

theorem RoundedProduct.abs_sub_lt {s : Bool} {P m : Nat} {x : Rat} (h : RoundedProduct s P x m) {e : Int}
    (he : e < 255) : |(|val (pack s m e)| - x * (2 : Rat) ^ (e - 150))| < ulp (pack s m e) := by
  obtain ⟨hup, hlo, -⟩ := h.bounds
  have := abs_val_pack_lt s h.lower h.upper he hup
  have := lt_abs_val_pack_add s h.lower h.upper he le_rfl hlo
  rw [abs_lt]
  exact ⟨by linarith, by linarith⟩

theorem RoundedProduct.overflow_pos {P m : Nat} {x : Rat} (h : RoundedProduct false P x m) (e : Int) :
    255 ≤ e ↔ 2 ^ 128 ≤ x * (2 : Rat) ^ (e - 150) := by
  have hm : (2 ^ 23 : Rat) ≤ m := by exact_mod_cast h.lower
  exact le_exponent_iff 255 (hm.trans (h.bounds.2.2 rfl)) h.exact_upper

theorem RoundedProduct.overflow_neg {P m : Nat} {x : Rat} (h : RoundedProduct true P x m) (e : Int) :
    255 ≤ e ↔ 2 ^ 128 - 2 ^ 104 < x * (2 : Rat) ^ (e - 150) := by
  have hlo := h.exact_lower
  have hhi := h.neg_upper rfl
  constructor
  · intro he
    have hw : (2 : Rat) ^ (105 : Int) ≤ 2 ^ (e - 150) := zpow_le_zpow_right₀ one_le_two (by omega)
    calc (2 ^ 128 - 2 ^ 104 : Rat) = (2 ^ 23 - 1 / 2) * 2 ^ (105 : Int) := by norm_num
      _ < x * 2 ^ (105 : Int) := by gcongr
      _ ≤ x * 2 ^ (e - 150) := by gcongr
  · intro hX
    by_contra he
    have hw : (2 : Rat) ^ (e - 150) ≤ 2 ^ (104 : Int) := zpow_le_zpow_right₀ one_le_two (by omega)
    have : x * (2 : Rat) ^ (e - 150) ≤ 2 ^ 128 - 2 ^ 104 := by
      calc x * (2 : Rat) ^ (e - 150) ≤ (2 ^ 24 - 1) * 2 ^ (104 : Int) := by gcongr
        _ = 2 ^ 128 - 2 ^ 104 := by norm_num
    linarith

/-- Settles O33: the product is `pack` of a rounded significand (`fpMul_spec`), and `pack` keeps a value in the order and
within the ulp its significand is in. -/
theorem mulWithinOneUlp : Obligations.MulWithinOneUlp := by
  intro a b m n ha hza hb hzb hm hn
  obtain ⟨M, e, x, hv, hround, hX⟩ := fpMul_spec ha hza hb hzb
  have hpos := val_mul_pos_iff ha hza hb hzb
  have hneg := val_mul_neg_iff ha hza hb hzb
  rw [gives_normman_iff.1 hm, gives_normman_iff.1 hn, normMan_toNat ha hza, normMan_toNat hb hzb]
  refine ⟨fpMul a b, fun _ => rfl, ?_⟩
  rw [hv]
  change _ ∧ _ = xorSign a b ∧ _
  generalize xorSign a b = s at *
  have hw : (0 : Rat) < 2 ^ (e - 150) := by positivity
  rw [isFinite_pack, decide_eq_true_iff]
  refine ⟨isNan_pack _ _ _, sgn_pack _ _ _, fun he => ?_, fun he hp => ?_, fun he hnorm hlt => ?_,
    fun r hf hnorm hr => ?_, fun hp => ?_, fun hlt => ?_⟩
  · rw [abs_sub_eq_of_sgn (by rwa [sgn_pack]) (by rwa [sgn_pack]), hX]
    exact hround.abs_sub_lt he
  · have hs := hpos.1 hp
    rw [val_of_sgn_false ((sgn_pack _ _ _).trans hs), ← abs_of_pos hp, hX]
    exact abs_val_pack_le s hround.lower hround.upper he (hround.bounds.2.2 hs)
  · have hs := hneg.1 hlt
    obtain ⟨h1, -⟩ := exponent_of_normal_pack (by rwa [isFinite_pack, decide_eq_true_iff]) hnorm
    obtain ⟨hu, hval⟩ := abs_val_pack_of_normal s hround.lower hround.upper h1 he
    rw [hval, hu, hX, ← mul_assoc, mul_div_cancel_right₀ _ hw.ne', mul_div_cancel_right₀ _ hw.ne']
    exact ⟨fun hP => by rw [← hround.neg_small hs hP]; simp, fun hP => by rw [← hround.neg_large hs hP]; simp⟩
  · obtain ⟨hx, hpack⟩ := eq_pack_of_abs_val hf hnorm hround.exact_lower hround.exact_upper (by rw [hr, hX])
    subst hx
    rw [sgn_of_val_eq hf hnorm hr hpos] at hpack
    rw [hround.eq_of_exact]
    exact hpack.symm
  · obtain rfl := hpos.1 hp
    rw [isInf_pack, ← abs_of_pos hp, hX]
    exact hround.overflow_pos e
  · obtain rfl := hneg.1 hlt
    rw [isInf_pack, hX]
    exact hround.overflow_neg e

/-! ## The divider (R131) -/

theorem fpDiv_of_finite {a b : Word} (ha : isFinite a = true) (hza : isZero a = false) (hb : isFinite b = true)
    (hzb : isZero b = false) : fpDiv a b = divDatapath a b := by
  rw [fpDiv, isNan_of_isFinite ha, isNan_of_isFinite hb, isInf_of_isFinite ha, isInf_of_isFinite hb, hza, hzb]
  simp

theorem val_div_pos_iff {a b : Word} (ha : isFinite a = true) (hza : isZero a = false) (hb : isFinite b = true)
    (hzb : isZero b = false) : 0 < val a / val b ↔ xorSign a b = false := by
  rw [div_pos_iff, val_pos_iff ha hza, val_pos_iff hb hzb, val_neg_iff ha hza, val_neg_iff hb hzb, xorSign]
  cases sgn a <;> cases sgn b <;> simp

theorem abs_val_div {a b : Word} (ha : isFinite a = true) (hza : isZero a = false) (hb : isFinite b = true)
    (hzb : isZero b = false) : |val a / val b| =
      ((norm a).1 * 2 ^ 23 : Rat) / (norm b).1 * (2 : Rat) ^ ((norm a).2 - (norm b).2 + 127 - 150) := by
  have he : (2 : Rat) ^ ((norm a).2 - 150) =
      (2 : Rat) ^ ((norm b).2 - 150) * ((2 : Rat) ^ ((norm a).2 - (norm b).2 + 127 - 150) * 2 ^ 23) := by
    rw [zpow_mul_pow rfl, ← zpow_add₀ two_ne_zero]
    congr 1
    omega
  have hpow : (2 : Rat) ^ ((norm b).2 - 150) ≠ 0 := by positivity
  rw [abs_div, abs_val_eq_norm ha hza, abs_val_eq_norm hb hzb, he, mul_left_comm, mul_comm ((norm b).1 : Rat),
    mul_div_mul_left _ _ hpow]
  ring

/-- How the significand `m` that the divider packs comes from the exact one, `x`, for the significands `A` of the dividend
and `B` of the divisor: all its bits are kept, or all but the last. -/
structure TruncatedQuotient (A B : Nat) (x : Rat) (m : Nat) : Prop where
  lower : 2 ^ 23 ≤ m
  upper : m < 2 ^ 24
  le : (m : Rat) ≤ x
  exact_upper : x < 2 ^ 24
  lt_one : B ≤ A → x < m + 1
  lt_two : A < B → x < m + 2
  even : A < B → m % 2 = 0

/-- The quotient of the divider's registers is the exact one without its fraction. -/
theorem quotient_bounds (A : Nat) {B : Nat} (hB : 0 < B) : ((A * 2 ^ 23 / B : Nat) : Rat) ≤ A * 2 ^ 23 / B ∧
    (A * 2 ^ 23 / B : Rat) < (A * 2 ^ 23 / B : Nat) + 1 := by
  have hBq : (0 : Rat) < B := by exact_mod_cast hB
  rw [le_div_iff₀ hBq, div_lt_iff₀ hBq, add_one_mul]
  exact ⟨by exact_mod_cast Nat.div_mul_le_self _ B, by exact_mod_cast Nat.lt_div_mul_add hB⟩

/-- Where the dividend's significand is not the smaller, the quotient has 24 bits. -/
theorem truncatedQuotient_of_le {A B : Nat} (hA : A < 2 ^ 24) (hB : 2 ^ 23 ≤ B) (h : B ≤ A) :
    TruncatedQuotient A B (A * 2 ^ 23 / B) (A * 2 ^ 23 / B) := by
  have hB0 : 0 < B := by omega
  obtain ⟨hle, hlt⟩ := quotient_bounds A hB0
  have hhi : A * 2 ^ 23 / B < 2 ^ 24 := by rw [Nat.div_lt_iff_lt_mul hB0]; omega
  have hhiq : ((A * 2 ^ 23 / B : Nat) : Rat) + 1 ≤ 2 ^ 24 := by exact_mod_cast hhi
  exact {
    lower := by rw [Nat.le_div_iff_mul_le hB0]; omega
    upper := hhi
    le := hle
    exact_upper := by linarith
    lt_one := fun _ => hlt
    lt_two := fun h' => absurd h' (by omega)
    even := fun h' => absurd h' (by omega) }

/-- Where it is the smaller, the quotient has 23 bits, and a 0 is put after them. -/
theorem truncatedQuotient_of_lt {A B : Nat} (hA : 2 ^ 23 ≤ A) (hB : B < 2 ^ 24) (h : A < B) :
    TruncatedQuotient A B (2 * (A * 2 ^ 23 / B)) (2 * (A * 2 ^ 23 / B)) := by
  have hB0 : 0 < B := by omega
  obtain ⟨hle, hlt⟩ := quotient_bounds A hB0
  have hlo : 2 ^ 22 ≤ A * 2 ^ 23 / B := by rw [Nat.le_div_iff_mul_le hB0]; omega
  have hhi : A * 2 ^ 23 / B < 2 ^ 23 := by rw [Nat.div_lt_iff_lt_mul hB0]; omega
  have hhiq : ((A * 2 ^ 23 / B : Nat) : Rat) + 1 ≤ 2 ^ 23 := by exact_mod_cast hhi
  exact {
    lower := by omega
    upper := by omega
    le := by rw [Nat.cast_mul, Nat.cast_ofNat]; linarith
    exact_upper := by linarith
    lt_one := fun h' => absurd h' (by omega)
    lt_two := fun _ => by rw [Nat.cast_mul, Nat.cast_ofNat]; linarith
    even := fun _ => by omega }

/-- The quotient is packed from a truncated significand whose exact counterpart is the exact quotient. -/
theorem fpDiv_spec {a b : Word} (ha : isFinite a = true) (hza : isZero a = false) (hb : isFinite b = true)
    (hzb : isZero b = false) : ∃ (m : Nat) (e : Int) (x : Rat), fpDiv a b = pack (xorSign a b) m e ∧
      TruncatedQuotient (norm a).1 (norm b).1 x m ∧ |val a / val b| = x * (2 : Rat) ^ (e - 150) := by
  obtain ⟨hla, hua, -⟩ := norm_spec a ha hza
  obtain ⟨hlb, hub, -⟩ := norm_spec b hb hzb
  rw [fpDiv_of_finite ha hza hb hzb, divDatapath, abs_val_div ha hza hb hzb]
  simp only [Nat.shiftLeft_eq, pow_one]
  by_cases h : (norm b).1 ≤ (norm a).1
  · have hT := truncatedQuotient_of_le hua hlb h
    have hbit : ((norm a).1 * 2 ^ 23 / (norm b).1).testBit 23 = true := by
      have := hT.lower
      have := hT.upper
      rw [Nat.testBit_eq_decide_div_mod_eq, decide_eq_true_iff]
      omega
    rw [if_pos hbit]
    exact ⟨_, _, _, rfl, hT, rfl⟩
  · have hT := truncatedQuotient_of_lt hla hub (by omega)
    have hbit : ((norm a).1 * 2 ^ 23 / (norm b).1).testBit 23 = false := by
      have := hT.upper
      rw [Nat.testBit_eq_decide_div_mod_eq, decide_eq_false_iff_not]
      omega
    rw [hbit, if_neg Bool.false_ne_true, mul_comm _ 2]
    refine ⟨_, _, _, rfl, hT, ?_⟩
    rw [← zpow_mul_pow (i := (norm a).2 - (norm b).2 + 127 - 1 - 150) (n := 1) (by omega)]
    ring

/-- A quotient significand that is a natural number is packed unrounded, where its dropped bit is 0. -/
theorem TruncatedQuotient.eq_of_exact {A B k m : Nat} (h : TruncatedQuotient A B k m) (hk : B ≤ A ∨ k % 2 = 0) :
    m = k := by
  have hle : m ≤ k := by exact_mod_cast h.le
  by_cases hBA : B ≤ A
  · have : k < m + 1 := by exact_mod_cast h.lt_one hBA
    omega
  · have : k < m + 2 := by exact_mod_cast h.lt_two (by omega)
    have := h.even (by omega)
    omega

theorem getLsbD_zero_eq (r : Word) : r.getLsbD 0 = decide (mant r % 2 = 1) := by
  rw [mant_eq, BitVec.getLsbD, Nat.testBit_zero, Nat.mod_mod_of_dvd _ (by norm_num)]

theorem getLsbD_zero_pack {s : Bool} {m : Nat} {e : Int} (h1 : 1 ≤ e) (he : e < 255) :
    (pack s m e).getLsbD 0 = decide (m % 2 = 1) := by
  rw [getLsbD_zero_eq, pack, if_neg (by omega), if_pos h1, mant_pattern, Nat.mod_mod_of_dvd _ (by norm_num)]

/-- Settles O37: the quotient is `pack` of a truncated significand (`fpDiv_spec`), and `pack` truncates further only below
the normal range. -/
theorem divTruncates : Obligations.DivTruncates := by
  intro a b m n ha hza hb hzb hm hn
  obtain ⟨M, e, x, hv, hT, hX⟩ := fpDiv_spec ha hza hb hzb
  have hpos := val_div_pos_iff ha hza hb hzb
  have hlo : (2 ^ 23 : Rat) ≤ x := le_trans (by exact_mod_cast hT.lower) hT.le
  rw [gives_normman_iff.1 hm, gives_normman_iff.1 hn, normMan_toNat ha hza, normMan_toNat hb hzb]
  refine ⟨fpDiv a b, fun _ => rfl, ?_⟩
  rw [hv, hX, isFinite_pack, decide_eq_true_iff]
  refine ⟨isNan_pack _ _ _, sgn_pack _ _ _, fun he => ⟨?_, ?_⟩, fun hlt he hnorm => ?_, fun r hf hnorm hr hbit => ?_, ?_⟩
  · exact abs_val_pack_le _ hT.lower hT.upper he hT.le
  · split
    · next h => exact lt_abs_val_pack_add _ hT.lower hT.upper he le_rfl (hT.lt_one h)
    · next h => exact lt_abs_val_pack_add _ hT.lower hT.upper he one_le_two (hT.lt_two (by omega))
  · obtain ⟨h1, -⟩ := exponent_of_normal_pack (by rwa [isFinite_pack, decide_eq_true_iff]) hnorm
    rw [getLsbD_zero_pack h1 he, hT.even hlt]
    rfl
  · obtain ⟨hx, hpack⟩ := eq_pack_of_abs_val hf hnorm (by linarith) hT.exact_upper (by rw [hr, hX])
    subst hx
    rw [sgn_of_val_eq hf hnorm hr hpos] at hpack
    have hk : (norm b).1 ≤ (norm a).1 ∨ (mant r + 2 ^ 23) % 2 = 0 :=
      hbit.imp_right fun h0 => by
        rw [getLsbD_zero_eq, decide_eq_false_iff_not] at h0
        omega
    rw [hT.eq_of_exact hk]
    exact hpack.symm
  · rw [isInf_pack]
    exact le_exponent_iff 255 hlo hT.exact_upper

end Sys2Proof.Machine

/-! PROOFS of the adder family (41_add_sub.md): either operand can be the anchor where the exponents are equal, the
aligned sum is the floor of the exact one, and the result is `pack` of it renormalised. The commutativity of the product
stands here too (R127 item 1). -/

namespace Sys2Proof.Machine

/-! ## Negation (R114) -/

@[simp] theorem sgn_fneg (r : Word) : sgn (fneg r) = !sgn r := by simp [sgn, fneg]

theorem fneg_fneg (r : Word) : fneg (fneg r) = r := eq_of_fields (by simp) (by simp) (by simp)

theorem val_fneg (r : Word) : val (fneg r) = -val r := by
  have habs : absUnits (fneg r) = absUnits r := by simp [absUnits, magnitude]
  rw [val, val, units, units, habs, sgn_fneg]
  cases sgn r <;> simp [neg_div]

/-- Settles O31: NEG is the flip of bit 31, which no other field and not the magnitude depend on. -/
theorem negFlipsTheSign : Obligations.NegFlipsTheSign := fun a =>
  ⟨fneg a, gives_neg a, rfl, sgn_fneg a, expo_fneg a, mant_fneg a, (gives_iff _ _).2 (fneg_fneg a).symm,
    fun _ => val_fneg a⟩

/-! ## The anchor (R110, R111) -/

theorem expo_lt_of_isFinite {r : Word} (h : isFinite r = true) : expo r < 255 :=
  Nat.lt_of_le_of_ne (Nat.le_of_lt_succ (expo_lt r)) ((isFinite_iff r).1 h)

theorem fpAdd_of_isNan {a b : Word} (h : isNan a = true ∨ isNan b = true) : fpAdd a b = Pat.cnan :=
  if_pos (by simpa using h)

theorem fpAdd_of_expo_le {a b : Word} (ha : isNan a = false) (hb : isNan b = false) (h : expo b ≤ expo a) :
    fpAdd a b = addAnchored a b := by
  rw [fpAdd, ha, hb, if_neg (by simp), if_neg (by omega)]

theorem fpAdd_of_expo_lt {a b : Word} (ha : isNan a = false) (hb : isNan b = false) (h : expo a < expo b) :
    fpAdd a b = addAnchored b a := by
  rw [fpAdd, ha, hb, if_neg (by simp), if_pos h]

theorem addAnchored_of_isInf {x y : Word} (hx : isInf x = true) (hy : isFinite y = true ∨ x = y) :
    addAnchored x y = x := by
  rw [addAnchored, if_pos ((isInf_iff x).1 hx).1]
  rcases hy with hy | rfl
  · exact if_pos ((isFinite_iff y).1 hy)
  · simp

theorem addAnchored_of_isInf_ne {x y : Word} (hx : isInf x = true) (hy : isInf y = true) (h : x ≠ y) :
    addAnchored x y = Pat.cnan := by
  rw [addAnchored, if_pos ((isInf_iff x).1 hx).1, if_neg (by simp [((isInf_iff y).1 hy).1]), if_neg h]

theorem addAnchored_of_lt {x y : Word} (hx : isFinite x = true) (h : expo y + 25 < expo x) : addAnchored x y = x := by
  rw [addAnchored, if_neg ((isFinite_iff x).1 hx), if_pos (by omega)]

theorem addAnchored_of_le {x y : Word} (hx : isFinite x = true) (h : expo x ≤ expo y + 25) :
    addAnchored x y = addDatapath x y := by
  rw [addAnchored, if_neg ((isFinite_iff x).1 hx), if_neg (by omega)]

/-- With no shift the two terms of the aligned sum change places. -/
theorem addDatapath_comm_of_expo_eq {x y : Word} (h : expo x = expo y) : addDatapath x y = addDatapath y x := by
  have hsum : alignedSum x y = alignedSum y x := by
    simp [alignedSum, h, add_comm]
  rw [addDatapath_eq, addDatapath_eq, hsum, h]

theorem addAnchored_comm_of_expo_eq {x y : Word} (h : expo x = expo y) : addAnchored x y = addAnchored y x := by
  unfold addAnchored
  rw [h, addDatapath_comm_of_expo_eq h]
  split
  · next hinf =>
    by_cases hxy : x = y
    · rw [hxy]
    · simp [hinf, hxy, Ne.symm hxy]
  · simp

theorem fpAdd_comm (a b : Word) : fpAdd a b = fpAdd b a := by
  by_cases hn : isNan a = true ∨ isNan b = true
  · rw [fpAdd_of_isNan hn, fpAdd_of_isNan hn.symm]
  · obtain ⟨ha, hb⟩ : isNan a = false ∧ isNan b = false := by simpa using hn
    rcases lt_trichotomy (expo a) (expo b) with h | h | h
    · rw [fpAdd_of_expo_lt ha hb h, fpAdd_of_expo_le hb ha h.le]
    · rw [fpAdd_of_expo_le ha hb h.ge, fpAdd_of_expo_le hb ha h.le, addAnchored_comm_of_expo_eq h]
    · rw [fpAdd_of_expo_le ha hb h.le, fpAdd_of_expo_lt hb ha h]

theorem fpMul_comm (a b : Word) : fpMul a b = fpMul b a := by
  have hs : xorSign a b = xorSign b a := Bool.xor_comm _ _
  have hd : mulDatapath a b = mulDatapath b a := by
    simp only [mulDatapath, mul_comm (signedNorm a), add_comm (norm a).2]
  rw [fpMul, fpMul, hs, hd, Bool.or_comm, Bool.or_comm (isInf a), Bool.or_comm (isZero a)]

theorem gives_mul (a b : Word) : Gives (.mul a b) (fpMul a b) := fun _ => rfl

/-- Settles O27: the result is the same word in both orders. -/
theorem addAndMulCommute : Obligations.AddAndMulCommute := fun a b =>
  ⟨⟨_, gives_add a b, fpAdd_comm a b ▸ gives_add b a⟩, ⟨_, gives_mul a b, fpMul_comm a b ▸ gives_mul b a⟩⟩

theorem gives_add_iff {a b v : Word} : Gives (.add a b) v ↔ v = fpAdd a b := gives_iff _ _

theorem gives_sub_iff {a b v : Word} : Gives (.sub a b) v ↔ v = fpSub a b := gives_iff _ _

/-- A sum that is its left operand is so in both orders. -/
theorem gives_add_left {a b : Word} (h : fpAdd a b = a) : Gives (.add a b) a ∧ Gives (.add b a) a :=
  ⟨gives_add_iff.2 h.symm, gives_add_iff.2 ((fpAdd_comm b a).trans h).symm⟩

theorem isNan_of_isInf {r : Word} (h : isInf r = true) : isNan r = false := by simp [isNan, ((isInf_iff r).1 h).2]

theorem isInf_of_not_finite {r : Word} (hn : isNan r = false) (hf : isFinite r = false) : isInf r = true := by
  by_contra hi
  exact Bool.false_ne_true (hf.symm.trans (isFinite_of_not hn (Bool.eq_false_iff.2 hi)))

@[simp] theorem isInf_fneg (r : Word) : isInf (fneg r) = isInf r := by simp [isInf]

theorem ne_fneg (r : Word) : r ≠ fneg r := fun h => by simpa using congrArg sgn h

theorem expo_le_of_isInf {x : Word} (y : Word) (hx : isInf x = true) : expo y ≤ expo x := by
  have := expo_lt y
  have := ((isInf_iff x).1 hx).1
  omega

/-- An infinity is the sum of itself and a finite operand or itself (R110 step 3). -/
theorem fpAdd_of_isInf {a b : Word} (ha : isInf a = true) (h : isFinite b = true ∨ a = b) : fpAdd a b = a := by
  have hb : isNan b = false := by
    rcases h with h | rfl
    · exact isNan_of_isFinite h
    · exact isNan_of_isInf ha
  rw [fpAdd_of_expo_le (isNan_of_isInf ha) hb (expo_le_of_isInf b ha), addAnchored_of_isInf ha h]

theorem fpAdd_of_isInf_ne {a b : Word} (ha : isInf a = true) (hb : isInf b = true) (h : a ≠ b) :
    fpAdd a b = Pat.cnan := by
  rw [fpAdd_of_expo_le (isNan_of_isInf ha) (isNan_of_isInf hb) (expo_le_of_isInf b ha), addAnchored_of_isInf_ne ha hb h]

theorem fpAdd_of_expo_gap {a b : Word} (ha : isFinite a = true) (hb : isFinite b = true) (h : expo b + 25 < expo a) :
    fpAdd a b = a := by
  rw [fpAdd_of_expo_le (isNan_of_isFinite ha) (isNan_of_isFinite hb) (by omega), addAnchored_of_lt ha h]

/-- Settles O26: the larger exponent field is the anchor's, and the steps before the datapath answer it, or `CNAN`. -/
theorem addSpecialOperands : Obligations.AddSpecialOperands := fun a b => by
  refine ⟨fun h => ?_, fun ha hb => ?_, fun ha => ⟨?_, ?_⟩, fun ha hb h => ?_⟩
  · exact gives_add_iff.2 (fpAdd_of_isNan h).symm
  · exact gives_add_left (fpAdd_of_isInf ha (.inl hb))
  · exact (gives_add_left (fpAdd_of_isInf ha (.inr rfl))).1
  · exact gives_add_iff.2 (fpAdd_of_isInf_ne ha (by rwa [isInf_fneg]) (ne_fneg a)).symm
  · exact gives_add_left (fpAdd_of_expo_gap ha hb h)

/-! ## The aligned sum against the exact one (R112 steps 5 and 6) -/

/-- A value is its signed mantissa in units of its last place (R10, R86). -/
theorem val_eq_signedMantissa_mul_ulp (r : Word) : val r = signedMantissa r * ulp r := by
  have hp : (2 : Rat) ^ (max (expo r) 1 - 1) * 2 = 2 ^ max (expo r) 1 := by
    rw [← pow_succ, Nat.sub_add_cancel (le_max_right _ _)]
  rw [val, units, absUnits, Nat.shiftLeft_eq, signedMantissa, ulp, ← hp]
  split <;> push_cast <;> ring

theorem abs_signedMantissa_le (r : Word) : |(signedMantissa r : Rat)| ≤ 2 ^ 24 - 1 := by
  obtain ⟨hl, hu⟩ := signedMantissa_bounds r
  rw [abs_le]
  constructor
  · exact_mod_cast (by omega : -(2 ^ 24 - 1 : Int) ≤ signedMantissa r)
  · exact_mod_cast (by omega : signedMantissa r ≤ 2 ^ 24 - 1)

theorem abs_val_le_of_expo_le {r : Word} {e : Int} (h : (max (expo r) 1 : Nat) ≤ e) :
    |val r| ≤ (2 ^ 24 - 1) * (2 : Rat) ^ (e - 150) := by
  rw [val_eq_signedMantissa_mul_ulp, ulp_eq, abs_mul, abs_of_pos (a := (2 : Rat) ^ _) (by positivity)]
  exact mul_le_mul (abs_signedMantissa_le r) (zpow_le_zpow_right₀ one_le_two (by omega)) (by positivity) (by norm_num)

/-- The sum R112 forms, with nothing lost by the shift, in units of `2^(ex - 156)`. -/
def exactSum (x y : Word) : Rat :=
  signedMantissa x * 64 + signedMantissa y * 64 / (2 ^ (max (expo x) 1 - max (expo y) 1) : Nat)

theorem val_add_val {x y : Word} (h : expo y ≤ expo x) :
    val x + val y = exactSum x y * (2 : Rat) ^ ((max (expo x) 1 : Nat) - 6 - 150 : Int) := by
  have hx : ulp x = 64 * (2 : Rat) ^ ((max (expo x) 1 : Nat) - 6 - 150 : Int) := by
    rw [ulp_eq, ← zpow_mul_pow (i := (max (expo x) 1 : Nat) - 6 - 150) (n := 6) (by omega)]
    ring
  have hy : ulp x = ulp y * (2 ^ (max (expo x) 1 - max (expo y) 1) : Nat) := by
    rw [ulp_eq, ulp_eq, Nat.cast_pow, Nat.cast_ofNat]
    exact (zpow_mul_pow (by omega)).symm
  rw [val_eq_signedMantissa_mul_ulp, val_eq_signedMantissa_mul_ulp, exactSum, add_mul, mul_assoc, ← hx,
    div_mul_eq_mul_div, mul_assoc, ← hx, hy, ← mul_assoc, ← mul_assoc, mul_div_cancel_right₀ _ (by positivity)]

theorem alignedSum_eq_floor (x y : Word) : alignedSum x y = ⌊exactSum x y⌋ := by
  rw [alignedSum, exactSum, Int.shiftRight_eq_div_pow, ← Rat.floor_intCast_div_natCast, ← Int.floor_intCast_add]
  push_cast
  rfl

/-- No bit is lost where the shift is one of the 6 guard bits (R113 item 3). -/
theorem exactSum_eq_of_expo_le {x y : Word} (h : max (expo x) 1 ≤ max (expo y) 1 + 6) :
    exactSum x y = alignedSum x y := by
  obtain ⟨k, hk⟩ := Nat.exists_eq_add_of_le (show max (expo x) 1 - max (expo y) 1 ≤ 6 by omega)
  have h64 : (64 : Rat) = 2 ^ k * (2 ^ (max (expo x) 1 - max (expo y) 1) : Nat) := by
    rw [Nat.cast_pow, Nat.cast_ofNat, ← pow_add, add_comm k, ← hk]
    norm_num
  have hint : exactSum x y = (signedMantissa x * 64 + signedMantissa y * 2 ^ k : Int) := by
    rw [exactSum, (div_eq_iff (by positivity)).2 ((congrArg _ h64).trans (mul_assoc _ _ _).symm)]
    push_cast
    rfl
  rw [alignedSum_eq_floor, hint, Int.floor_intCast]

/-- Beyond the guard bits the larger operand is normal, and the smaller one cannot cancel its leading bits. -/
theorem le_natAbs_alignedSum {x y : Word} (h : max (expo y) 1 + 6 < max (expo x) 1) :
    2 ^ 28 ≤ (alignedSum x y).natAbs := by
  obtain ⟨hyl, hyu⟩ := signedMantissa_bounds y
  have hx : 2 ^ 23 ≤ (signedMantissa x).natAbs := by
    have : expo x ≠ 0 := by omega
    unfold signedMantissa magnitude
    split <;> omega
  obtain ⟨d, hd⟩ := Nat.exists_eq_add_of_le (show 7 ≤ max (expo x) 1 - max (expo y) 1 by omega)
  have hs : (signedMantissa y * 64) >>> (max (expo x) 1 - max (expo y) 1) =
      ((signedMantissa y * 64) >>> (7 : Nat)) >>> d := by
    rw [hd, Int.shiftRight_add]
  have h7 : (signedMantissa y * 64) >>> (7 : Nat) = signedMantissa y * 64 / 2 ^ 7 := Int.shiftRight_eq_div_pow _ _
  have hb := shiftRight_bounds (z := (signedMantissa y * 64) >>> (7 : Nat)) (B := 2 ^ 23) (by omega) (by omega) d
  rw [alignedSum, hs]
  omega

/-- Where the aligned sum has no bit to drop, the shift has dropped none either. -/
theorem exactSum_eq_of_natAbs_lt {x y : Word} (h : (alignedSum x y).natAbs < 2 ^ 24) :
    exactSum x y = alignedSum x y := by
  refine exactSum_eq_of_expo_le ?_
  by_contra hgap
  have := le_natAbs_alignedSum (x := x) (y := y) (by omega)
  omega

theorem alignedSum_neg_iff {x y : Word} (h : expo y ≤ expo x) : alignedSum x y < 0 ↔ val x + val y < 0 := by
  have hp : (0 : Rat) < 2 ^ ((max (expo x) 1 : Nat) - 6 - 150 : Int) := by positivity
  rw [alignedSum_eq_floor, Int.floor_lt, val_add_val h, Int.cast_zero, ← not_le, ← not_le,
    mul_nonneg_iff_of_pos_right hp]

theorem alignedSum_eq_zero_iff {x y : Word} (h : expo y ≤ expo x) : alignedSum x y = 0 ↔ val x + val y = 0 := by
  have hp : (2 : Rat) ^ ((max (expo x) 1 : Nat) - 6 - 150 : Int) ≠ 0 := by positivity
  rw [val_add_val h, mul_eq_zero_iff_right hp]
  constructor
  · intro h0
    rw [exactSum_eq_of_natAbs_lt (by simp [h0]), h0, Int.cast_zero]
  · intro h0
    rw [alignedSum_eq_floor, h0, Int.floor_zero]

theorem natAbs_alignedSum_bounds (x y : Word) :
    ((alignedSum x y).natAbs : Rat) - 1 < |exactSum x y| ∧ |exactSum x y| < (alignedSum x y).natAbs + 1 := by
  have hl := Int.floor_le (exactSum x y)
  have hu := Int.lt_floor_add_one (exactSum x y)
  rw [← alignedSum_eq_floor] at hl hu
  rw [Nat.cast_natAbs, Int.cast_abs]
  rcases le_or_gt 0 (alignedSum x y) with h | h
  · have hq : (0 : Rat) ≤ alignedSum x y := by exact_mod_cast h
    rw [abs_of_nonneg hq, abs_of_nonneg (hq.trans hl)]
    exact ⟨by linarith, by linarith⟩
  · have hq : (alignedSum x y : Rat) + 1 ≤ 0 := by exact_mod_cast h
    rw [abs_of_neg (by linarith : (alignedSum x y : Rat) < 0), abs_of_neg (by linarith)]
    exact ⟨by linarith, by linarith⟩

/-! ## The sum renormalised (R112 steps 8 and 9) -/

/-- How the significand `m` that the adder packs compares with the exact one, `q`. The renormalisation truncates, by
less than 1. Flooring a negative operand may have made the magnitude of the sum larger before, by less than one unit of the
register; where it has, the renormalisation drops a bit at least, and that unit is at most half a unit of `m`. -/
structure RoundedSum (m : Nat) (q : Rat) : Prop where
  lower : 2 ^ 23 ≤ m
  upper : m < 2 ^ 24
  sub_half_lt : (m : Rat) - 1 / 2 < q
  lt_add_one : q < m + 1

/-- A sum's significand that is a natural number is packed unrounded. -/
theorem RoundedSum.eq_of_exact {m k : Nat} (h : RoundedSum m k) : m = k := by
  have hl : 2 * m < 2 * k + 1 := by
    have := h.sub_half_lt
    exact_mod_cast (by linarith : (2 * m : Rat) < 2 * k + 1)
  have hu : k < m + 1 := by exact_mod_cast h.lt_add_one
  omega

/-- Renormalising a number less than 1 from `Q`, and equal to it unless bits are dropped (R89). -/
theorem roundedSum_normalizeMag {n : Nat} {Q : Rat} (e : Int) (h0 : n ≠ 0) (hl : (n : Rat) - 1 < Q) (hu : Q < n + 1)
    (hexact : n < 2 ^ 24 → Q = n) : ∃ q, RoundedSum (normalizeMag n e).1 q ∧
      Q * (2 : Rat) ^ (e - 150) = q * (2 : Rat) ^ ((normalizeMag n e).2 - 150) := by
  obtain ⟨hlo, hhi, hleft, hright⟩ := normalizeMag_spec n e h0
  by_cases hn : n < 2 ^ 24
  · obtain ⟨k, hm, he⟩ := hleft hn
    refine ⟨((normalizeMag n e).1 : Nat), ⟨hlo, hhi, by linarith, by linarith⟩, ?_⟩
    rw [hexact hn, hm, he, ← zpow_mul_pow (i := e - k - 150) (n := k) (by omega)]
    push_cast
    ring
  · obtain ⟨k, hm, he⟩ := hright (by omega)
    have hk : k ≠ 0 := by
      rintro rfl
      rw [pow_zero, Nat.div_one] at hm
      omega
    have hk2 : (2 : Rat) ≤ (2 ^ k : Nat) := by exact_mod_cast Nat.le_self_pow hk 2
    have hdiv : ((normalizeMag n e).1 : Rat) * (2 ^ k : Nat) ≤ n := by
      rw [hm]; exact_mod_cast Nat.div_mul_le_self n (2 ^ k)
    have hmod : (n : Rat) + 1 ≤ ((normalizeMag n e).1 + 1) * (2 ^ k : Nat) := by
      rw [hm, add_one_mul]; exact_mod_cast Nat.lt_div_mul_add (a := n) (Nat.two_pow_pos k)
    refine ⟨Q / (2 ^ k : Nat), ⟨hlo, hhi, ?_, ?_⟩, ?_⟩
    · rw [lt_div_iff₀ (by positivity)]; linarith
    · rw [div_lt_iff₀ (by positivity)]; linarith
    · rw [he, ← zpow_mul_pow (i := e - 150) (n := k) (j := e + k - 150) (by ring)]
      push_cast
      field_simp

/-- A nonzero sum is packed with its sign, from a significand and an exponent whose exact counterpart is the exact
sum. -/
theorem addDatapath_spec {x y : Word} (h : expo y ≤ expo x) (h0 : val x + val y ≠ 0) :
    ∃ (m : Nat) (e : Int) (q : Rat), addDatapath x y = pack (decide (val x + val y < 0)) m e ∧ RoundedSum m q ∧
      |val x + val y| = q * (2 : Rat) ^ (e - 150) := by
  have hne := (alignedSum_eq_zero_iff h).not.2 h0
  obtain ⟨hl, hu⟩ := natAbs_alignedSum_bounds x y
  obtain ⟨q, hround, hq⟩ := roundedSum_normalizeMag ((max (expo x) 1 : Nat) - 6) (Int.natAbs_ne_zero.2 hne) hl hu
    fun hlt => by rw [exactSum_eq_of_natAbs_lt hlt, Nat.cast_natAbs, Int.cast_abs]
  rw [addDatapath_eq, if_neg hne, decide_eq_decide.2 (alignedSum_neg_iff h)]
  refine ⟨_, _, q, rfl, hround, ?_⟩
  rw [val_add_val h, abs_mul, abs_of_pos (a := (2 : Rat) ^ _) (by positivity), ← hq]

theorem addDatapath_of_val_add_eq_zero {x y : Word} (h : expo y ≤ expo x) (h0 : val x + val y = 0) :
    addDatapath x y = Pat.zero := by
  rw [addDatapath_eq, if_pos ((alignedSum_eq_zero_iff h).2 h0)]

theorem abs_val_pack_sub (m : Nat) (e : Int) {S : Rat} (h0 : S ≠ 0) :
    |val (pack (decide (S < 0)) m e) - S| = |(|val (pack (decide (S < 0)) m e)| - |S|)| := by
  refine abs_sub_eq_of_sgn ?_ ?_
  · rw [sgn_pack, decide_eq_false_iff_not, not_lt, h0.symm.le_iff_lt]
  · rw [sgn_pack, decide_eq_true_iff]

theorem RoundedSum.abs_sub_lt {m : Nat} {q : Rat} (h : RoundedSum m q) (s : Bool) {e : Int} (he : e < 255) :
    |(|val (pack s m e)| - q * (2 : Rat) ^ (e - 150))| < ulp (pack s m e) := by
  have hl := h.sub_half_lt
  have := abs_val_pack_lt s (x := q) h.lower h.upper he (by linarith)
  have := lt_abs_val_pack_add s h.lower h.upper he le_rfl h.lt_add_one
  rw [abs_lt]
  exact ⟨by linarith, by linarith⟩

/-- A sum is a multiple of `2^-149` (R113 item 4). -/
theorem abs_val_add_val (x y : Word) : |val x + val y| = ((units x + units y).natAbs : Rat) / 2 ^ 149 := by
  rw [val, val, ← add_div, abs_div, abs_of_pos (by positivity : (0 : Rat) < 2 ^ 149), Nat.cast_natAbs]
  push_cast
  rfl

/-- Below the normal range a multiple of `2^-149` is packed unrounded. -/
theorem RoundedSum.abs_val_of_subnormal {m N : Nat} {q : Rat} {e : Int} (h : RoundedSum m q) (s : Bool) (he : e < 1)
    (hN : q * (2 : Rat) ^ (e - 150) = (N : Rat) / 2 ^ 149) : |val (pack s m e)| = q * (2 : Rat) ^ (e - 150) := by
  have hq : q = (N * 2 ^ (1 - e).toNat : Nat) := by
    rw [eq_div_iff (by positivity), mul_assoc, zpow_mul_pow (j := e - 1) (by omega)] at hN
    rw [Nat.cast_mul, Nat.cast_pow, Nat.cast_ofNat, ← hN, mul_assoc, zpow_mul_pow (j := 0) (by omega),
      zpow_zero, mul_one]
  subst hq
  rw [abs_val_pack_of_subnormal s h.lower h.upper he, h.eq_of_exact, hN]
  simp

theorem val_zero : val Pat.zero = 0 := by
  have h : units Pat.zero = 0 := by decide
  rw [val, h]
  simp

theorem val_addDatapath_of_expo_eq_zero {x y : Word} (h : expo y ≤ expo x) (he : expo (addDatapath x y) = 0) :
    val (addDatapath x y) = val x + val y := by
  by_cases h0 : val x + val y = 0
  · rw [addDatapath_of_val_add_eq_zero h h0, val_zero, h0]
  · obtain ⟨m, e, q, hv, hround, hq⟩ := addDatapath_spec h h0
    have hx := expo_pack (decide (val x + val y < 0)) m e
    rw [hv] at he ⊢
    have hN := abs_val_add_val x y
    rw [← sub_eq_zero, ← abs_eq_zero, abs_val_pack_sub m e h0, hround.abs_val_of_subnormal _ (by omega) (hq ▸ hN), hq,
      sub_self, abs_zero]

/-! ## Overflow (R113 item 7) -/

theorem isInf_addDatapath {x : Word} (y : Word) (hx : isFinite x = true) :
    isInf (addDatapath x y) = true ↔ expo x = 254 ∧ 2 ^ 30 ≤ (alignedSum x y).natAbs := by
  have hlt := expo_lt_of_isFinite hx
  rw [addDatapath_eq]
  split
  · next h0 => exact iff_of_false (by decide) (by simp [h0])
  · next h0 =>
    have hne := Int.natAbs_ne_zero.2 h0
    have hlog := (Nat.log2_lt hne).2 (alignedSum_natAbs_lt x y)
    rw [isInf_pack, normalizeMag_exponent, ← Nat.le_log2 hne]
    omega

theorem abs_val_add_val_le {x y : Word} {e e' : Int} (hx : (max (expo x) 1 : Nat) ≤ e)
    (hy : (max (expo y) 1 : Nat) ≤ e') :
    |val x + val y| ≤ (2 ^ 24 - 1) * (2 : Rat) ^ (e - 150) + (2 ^ 24 - 1) * (2 : Rat) ^ (e' - 150) :=
  (abs_add_le _ _).trans (add_le_add (abs_val_le_of_expo_le hx) (abs_val_le_of_expo_le hy))

theorem val_add_val_of_expo_eq {x y : Word} (hx : expo x = 254) (h : expo y ≤ expo x) :
    val x + val y = exactSum x y * 2 ^ 98 := by
  rw [val_add_val h, hx]
  rfl

/-- Two operands below the topmost exponent do not reach the overflow bounds. -/
theorem abs_val_add_val_lt_of_expo_lt {x y : Word} (hx : expo x < 254) (h : expo y ≤ expo x) :
    |val x + val y| < 2 ^ 128 - 2 ^ 98 := by
  refine (abs_val_add_val_le (e := 253) (e' := 253) (by omega) (by omega)).trans_lt ?_
  norm_num

theorem isInf_addDatapath_iff_of_nonneg {x y : Word} (hx : isFinite x = true) (h : expo y ≤ expo x)
    (hS : 0 ≤ val x + val y) : isInf (addDatapath x y) = true ↔ 2 ^ 128 ≤ val x + val y := by
  have hlt := expo_lt_of_isFinite hx
  have hman : ¬ alignedSum x y < 0 := (alignedSum_neg_iff h).not.2 (not_lt.2 hS)
  rw [isInf_addDatapath y hx]
  by_cases he : expo x = 254
  · have hfloor : 2 ^ 30 ≤ alignedSum x y ↔ (2 ^ 30 : Rat) ≤ exactSum x y := by
      rw [alignedSum_eq_floor, Int.le_floor]
      norm_num
    rw [val_add_val_of_expo_eq he h, and_iff_right he]
    constructor
    · intro hn
      have := hfloor.1 (by omega)
      linarith
    · intro hS'
      have := hfloor.2 (by linarith)
      omega
  · have := (le_abs_self _).trans_lt (abs_val_add_val_lt_of_expo_lt (x := x) (by omega) h)
    exact iff_of_false (fun hn => he hn.1) (by linarith)

theorem isInf_addDatapath_iff_of_neg {x y : Word} (hx : isFinite x = true) (h : expo y ≤ expo x)
    (hS : val x + val y < 0) : isInf (addDatapath x y) = true ↔ 2 ^ 128 - 2 ^ 98 < |val x + val y| := by
  have hlt := expo_lt_of_isFinite hx
  have hman : alignedSum x y < 0 := (alignedSum_neg_iff h).2 hS
  rw [isInf_addDatapath y hx]
  by_cases he : expo x = 254
  · have hfloor : alignedSum x y < 1 - 2 ^ 30 ↔ exactSum x y < (1 - 2 ^ 30 : Rat) := by
      rw [alignedSum_eq_floor, Int.floor_lt]
      norm_num
    rw [abs_of_neg hS, val_add_val_of_expo_eq he h, and_iff_right he]
    constructor
    · intro hn
      have := hfloor.1 (by omega)
      linarith
    · intro hS'
      have := hfloor.2 (by linarith)
      omega
  · have := abs_val_add_val_lt_of_expo_lt (x := x) (by omega) h
    exact iff_of_false (fun hn => he hn.1) (by linarith)

/-! ## The sum against the exact one (R113) -/

/-- What R113 items 4, 5 and 7 say of the result `v` for the exact sum `S`. -/
structure ApproximatesSum (S : Rat) (v : Word) : Prop where
  not_nan : isNan v = false
  within_ulp : isFinite v = true → |val v - S| ≤ ulp v
  exact_of_subnormal : expo v = 0 → val v = S
  overflow_of_nonneg : 0 ≤ S → (isInf v = true ↔ 2 ^ 128 ≤ S)
  overflow_of_neg : S < 0 → (isInf v = true ↔ 2 ^ 128 - 2 ^ 98 < |S|)
  sgn_of_inf : isInf v = true → sgn v = decide (S < 0)

theorem ulp_pos (r : Word) : 0 < ulp r := by
  unfold ulp
  positivity

theorem approximatesSum_addDatapath {x y : Word} (hx : isFinite x = true) (h : expo y ≤ expo x) :
    ApproximatesSum (val x + val y) (addDatapath x y) where
  not_nan := isNan_addDatapath x y
  within_ulp hv := by
    by_cases h0 : val x + val y = 0
    · rw [addDatapath_of_val_add_eq_zero h h0, val_zero, h0, sub_self, abs_zero]
      exact (ulp_pos _).le
    · obtain ⟨m, e, q, hpack, hround, hq⟩ := addDatapath_spec h h0
      rw [hpack, isFinite_pack, decide_eq_true_iff] at hv
      rw [hpack, abs_val_pack_sub m e h0, hq]
      exact (hround.abs_sub_lt _ hv).le
  exact_of_subnormal := val_addDatapath_of_expo_eq_zero h
  overflow_of_nonneg := isInf_addDatapath_iff_of_nonneg hx h
  overflow_of_neg := isInf_addDatapath_iff_of_neg hx h
  sgn_of_inf hv := by
    by_cases h0 : val x + val y = 0
    · rw [addDatapath_of_val_add_eq_zero h h0] at hv
      exact absurd hv (by decide)
    · obtain ⟨m, e, q, hpack, -⟩ := addDatapath_spec h h0
      rw [hpack, sgn_pack]

/-- An operand more than 25 exponent steps smaller is less than an ulp of the other. -/
theorem abs_val_lt_ulp_of_expo_gap {x y : Word} (h : expo y + 25 < expo x) : |val y| < ulp x := by
  calc |val y| ≤ (2 ^ 24 - 1) * (2 : Rat) ^ ((expo x : Int) - 25 - 150) := abs_val_le_of_expo_le (by omega)
    _ < (2 : Rat) ^ ((expo x : Int) - 25 - 150) * 2 ^ 25 := by
      rw [mul_comm]
      gcongr
      norm_num
    _ = ulp x := by rw [zpow_mul_pow rfl, ulp_eq]; congr 1; omega

theorem ulp_le_abs_val {r : Word} (h : isZero r = false) : ulp r ≤ |val r| := by
  have hm : (1 : Int) ≤ |signedMantissa r| := by
    refine Int.one_le_abs fun h0 => ?_
    unfold signedMantissa magnitude at h0
    have hz := (isZero_iff r).not.1 (by simp [h])
    split at h0 <;> split at h0 <;> omega
  have hm' : (1 : Rat) ≤ |(signedMantissa r : Rat)| := by exact_mod_cast hm
  rw [val_eq_signedMantissa_mul_ulp, abs_mul, abs_of_pos (ulp_pos r)]
  exact le_mul_of_one_le_left (ulp_pos r).le hm'

theorem abs_val_add_val_lt_of_expo_gap {x y : Word} (hx : isFinite x = true) (h : expo y + 25 < expo x) :
    |val x + val y| < 2 ^ 128 - 2 ^ 98 := by
  have hlt := expo_lt_of_isFinite hx
  refine (abs_val_add_val_le (e := 254) (e' := 229) (by omega) (by omega)).trans_lt ?_
  norm_num

theorem approximatesSum_of_expo_gap {x y : Word} (hx : isFinite x = true) (h : expo y + 25 < expo x) :
    ApproximatesSum (val x + val y) x := by
  have hS := abs_val_add_val_lt_of_expo_gap hx h
  have hinf : ¬ isInf x = true := by simp [isInf_of_isFinite hx]
  exact {
    not_nan := isNan_of_isFinite hx
    within_ulp := fun _ => by
      rw [sub_add_cancel_left, abs_neg]
      exact (abs_val_lt_ulp_of_expo_gap h).le
    exact_of_subnormal := fun he => absurd h (by omega)
    overflow_of_nonneg := fun _ => iff_of_false hinf (by linarith [le_abs_self (val x + val y)])
    overflow_of_neg := fun _ => iff_of_false hinf (not_lt.2 hS.le)
    sgn_of_inf := fun hi => absurd hi hinf }

/-- Of finite operands the larger-exponent one, or the datapath's sum (R110 steps 4 and 5). -/
theorem fpAdd_of_finite {a b : Word} (ha : isFinite a = true) (hb : isFinite b = true) (h : expo b ≤ expo a) :
    fpAdd a b = if expo b + 25 < expo a then a else addDatapath a b := by
  rw [fpAdd_of_expo_le (isNan_of_isFinite ha) (isNan_of_isFinite hb) h]
  split
  · next hgap => exact addAnchored_of_lt ha hgap
  · next hgap => exact addAnchored_of_le ha (by omega)

theorem approximatesSum_fpAdd {a b : Word} (ha : isFinite a = true) (hb : isFinite b = true) :
    ApproximatesSum (val a + val b) (fpAdd a b) := by
  wlog h : expo b ≤ expo a generalizing a b
  · rw [fpAdd_comm, add_comm]
    exact this hb ha (by omega)
  rw [fpAdd_of_finite ha hb h]
  split
  · next hgap => exact approximatesSum_of_expo_gap ha hgap
  · exact approximatesSum_addDatapath ha h

/-- An overflowing sum has the sign of each operand: the other alone does not reach that far. -/
theorem sgn_eq_of_overflow {a b : Word} (hb : isFinite b = true) (h : 2 ^ 128 - 2 ^ 98 < |val a + val b|) :
    sgn a = decide (val a + val b < 0) := by
  have hlt := expo_lt_of_isFinite hb
  have hle : |val b| ≤ (2 ^ 24 - 1) * (2 : Rat) ^ (254 - 150 : Int) := abs_val_le_of_expo_le (by omega)
  have hbound : |val b| ≤ 2 ^ 128 - 2 ^ 98 := hle.trans (by norm_num)
  obtain ⟨hl, hu⟩ := abs_le.1 hbound
  cases hs : sgn a
  · have hpos := (val_of_sgn_false hs).ge.trans' (abs_nonneg _)
    refine (decide_eq_false fun hneg => ?_).symm
    rw [abs_of_neg hneg] at h
    linarith
  · have hneg := (val_of_sgn_true hs).le.trans (neg_nonpos.2 (abs_nonneg _))
    refine (decide_eq_true (not_le.1 fun hpos => ?_)).symm
    rw [abs_of_nonneg hpos] at h
    linarith

theorem ApproximatesSum.overflow_of_isInf {S : Rat} {v : Word} (h : ApproximatesSum S v) (hi : isInf v = true) :
    2 ^ 128 - 2 ^ 98 < |S| := by
  rcases le_or_gt 0 S with hS | hS
  · have := (h.overflow_of_nonneg hS).1 hi
    rw [abs_of_nonneg hS]
    linarith
  · exact (h.overflow_of_neg hS).1 hi

/-- Settles O29: the parts of `ApproximatesSum`, and the sign of a sum as large as an overflowing one. -/
theorem addWithinOneUlp : Obligations.AddWithinOneUlp := fun a b ha hb => by
  have h := approximatesSum_fpAdd ha hb
  refine ⟨_, gives_add a b, h.not_nan, h.within_ulp, h.exact_of_subnormal, h.overflow_of_nonneg, h.overflow_of_neg,
    fun hi => ?_⟩
  have hS := h.overflow_of_isInf hi
  rw [h.sgn_of_inf hi, sgn_eq_of_overflow hb hS, sgn_eq_of_overflow ha (by rwa [add_comm]), add_comm (val b)]
  exact ⟨rfl, rfl⟩

/-! ## Zero sums (R113 item 2) -/

theorem fpAdd_of_val_add_eq_zero {a b : Word} (ha : isFinite a = true) (hb : isFinite b = true)
    (h0 : val a + val b = 0) : fpAdd a b = Pat.zero := by
  wlog h : expo b ≤ expo a generalizing a b
  · rw [fpAdd_comm]
    exact this hb ha (by rwa [add_comm]) (by omega)
  rw [fpAdd_of_finite ha hb h]
  split
  · next hgap =>
    have hlt := abs_val_lt_ulp_of_expo_gap hgap
    have hle := ulp_le_abs_val (isZero_of_expo_pos (r := a) (by omega))
    rw [eq_neg_of_add_eq_zero_left h0, abs_neg] at hle
    exact absurd hle (not_le.2 hlt)
  · exact addDatapath_of_val_add_eq_zero h h0

theorem expo_fpAdd_of_not_finite {a : Word} (b : Word) (ha : isFinite a = false) : expo (fpAdd a b) = 255 := by
  by_cases hn : isNan a = true ∨ isNan b = true
  · rw [fpAdd_of_isNan hn]
    decide
  · obtain ⟨hna, hnb⟩ : isNan a = false ∧ isNan b = false := by simpa using hn
    have hia := isInf_of_not_finite hna ha
    by_cases hb : isFinite b = true ∨ a = b
    · rw [fpAdd_of_isInf hia hb]
      exact ((isInf_iff a).1 hia).1
    · obtain ⟨hfb, hne⟩ := not_or.1 hb
      rw [fpAdd_of_isInf_ne hia (isInf_of_not_finite hnb (Bool.eq_false_iff.2 hfb)) hne]
      decide

theorem fpAdd_ne_minus_zero (a b : Word) : fpAdd a b ≠ 0x80000000 := by
  intro hv
  have he : expo (fpAdd a b) = 0 := by rw [hv]; decide
  have ha : isFinite a = true := by
    by_contra h
    have := expo_fpAdd_of_not_finite b (Bool.eq_false_iff.2 h)
    omega
  have hb : isFinite b = true := by
    by_contra h
    have := expo_fpAdd_of_not_finite a (Bool.eq_false_iff.2 h)
    rw [fpAdd_comm] at this
    omega
  have h0 : val a + val b = 0 := by
    rw [← (approximatesSum_fpAdd ha hb).exact_of_subnormal he, hv]
    exact (val_fneg Pat.zero).trans (by simp [val_zero])
  rw [fpAdd_of_val_add_eq_zero ha hb h0] at hv
  exact absurd hv (by decide)

/-- Settles O28: the aligned sum is zero exactly where the exact sum is, and a result in the subnormal range is exact, so
a minus zero would be a zero sum. -/
theorem zeroSumsArePlusZero : Obligations.ZeroSumsArePlusZero := by
  refine ⟨fun a b ha hb h0 => ?_, fun a ha => ?_, fun a b => ?_⟩
  · exact gives_add_iff.2 (fpAdd_of_val_add_eq_zero ha hb h0).symm
  · have h0 : val a + val (fneg a) = 0 := by rw [val_fneg, add_neg_cancel]
    exact gives_sub_iff.2 (fpAdd_of_val_add_eq_zero ha (by rwa [isFinite_fneg]) h0).symm
  · exact ⟨_, _, gives_add a b, fpAdd_ne_minus_zero a b, gives_sub a b, fpAdd_ne_minus_zero a _⟩

/-! ## Representable sums (R113 item 3) -/

theorem sgn_eq_decide_of_val_ne_zero {r : Word} (h : val r ≠ 0) : sgn r = decide (val r < 0) := by
  cases hs : sgn r
  · rw [val_of_sgn_false hs]
    simp
  · rw [val_of_sgn_true hs]
    simpa using h

/-- Of one exponent field, two patterns of the same nonzero value are one pattern. -/
theorem eq_of_val_eq_of_expo_eq {r v : Word} (he : expo r = expo v) (h : val r = val v) (h0 : val r ≠ 0) : r = v := by
  have hs : sgn r = sgn v := by
    rw [sgn_eq_decide_of_val_ne_zero h0, sgn_eq_decide_of_val_ne_zero (h ▸ h0), h]
  have hulp : ulp r = ulp v := by rw [ulp, ulp, he]
  rw [val_eq_signedMantissa_mul_ulp, val_eq_signedMantissa_mul_ulp v, hulp] at h
  have hm : signedMantissa r = signedMantissa v := by exact_mod_cast mul_right_cancel₀ (ulp_pos v).ne' h
  simp only [signedMantissa, magnitude, he, hs] at hm
  exact eq_of_fields hs he (by split at hm <;> split at hm <;> omega)

theorem abs_val_le_of_expo_eq_zero {r : Word} (h : expo r = 0) : |val r| ≤ (2 ^ 23 - 1) / 2 ^ 149 := by
  have hm : (mant r : Rat) + 1 ≤ 2 ^ 23 := by exact_mod_cast mant_lt r
  have habs : absUnits r = mant r := by simp [absUnits, magnitude, h]
  rw [abs_val, habs]
  gcongr
  linarith

/-- A sum with the value of a subnormal pattern is packed below the normal range. -/
theorem RoundedSum.exponent_lt_of_expo_eq_zero {m : Nat} {q : Rat} {e : Int} {r : Word} (h : RoundedSum m q)
    (hr : expo r = 0) (hq : |val r| = q * (2 : Rat) ^ (e - 150)) : e < 1 := by
  by_contra he
  have hlo : (2 ^ 23 : Rat) ≤ m := by exact_mod_cast h.lower
  have hgt := h.sub_half_lt
  have hw : (2 : Rat) ^ (-149 : Int) ≤ 2 ^ (e - 150) := zpow_le_zpow_right₀ one_le_two (by omega)
  have hle := abs_val_le_of_expo_eq_zero hr
  have : (2 ^ 23 - 1 / 2) * (2 : Rat) ^ (-149 : Int) ≤ |val r| := by
    rw [hq]
    exact mul_le_mul (by linarith) hw (by positivity) (by linarith)
  norm_num at this hle
  linarith

/-- Settles O30: a sum with the value of a normal pattern has that pattern's significand, and one with the value of a
subnormal pattern lies in the subnormal range: it is packed unrounded in both cases. -/
theorem addExactWhenRepresentable : Obligations.AddExactWhenRepresentable := by
  intro a b r ha hb hr hab hba hval h0
  rw [gives_add_iff]
  wlog h : expo b ≤ expo a generalizing a b
  · rw [fpAdd_comm]
    exact this b a hb ha hba hab (by rwa [add_comm]) (by omega)
  rw [fpAdd_of_finite ha hb h, if_neg (by omega)]
  obtain ⟨m, e, q, hpack, hround, hq⟩ := addDatapath_spec h (hval ▸ h0)
  rw [← hval] at hq
  by_cases hn : expo r = 0
  · have he := hround.exponent_lt_of_expo_eq_zero hn hq
    have hv : expo (addDatapath a b) = 0 := by
      have := expo_pack (decide (val a + val b < 0)) m e
      rw [hpack]
      omega
    exact eq_of_val_eq_of_expo_eq (hn.trans hv.symm) (hval.trans (val_addDatapath_of_expo_eq_zero h hv).symm) h0
  · have hlo : (2 ^ 23 : Rat) ≤ m := by exact_mod_cast hround.lower
    have hhi : (m : Rat) + 1 ≤ 2 ^ 24 := by exact_mod_cast hround.upper
    have hgt := hround.sub_half_lt
    have hlt := hround.lt_add_one
    obtain ⟨rfl, hr'⟩ := eq_pack_of_abs_val hr hn (by linarith) (by linarith) hq
    rw [hpack, hround.eq_of_exact, ← hval, ← sgn_eq_decide_of_val_ne_zero h0]
    exact hr'

end Sys2Proof.Machine

/-! PROOFS of the multiplier and divider family (42_mul_div.md): the lines of R125 and R130 for special operands, the sign
of a quotient, and 1 as neutral operand, which rests on `pack` putting `norm`'s two parts together again. -/

namespace Sys2Proof.Machine

/-! ## Special products (R125) -/

theorem gives_mul_iff {a b v : Word} : Gives (.mul a b) v ↔ v = fpMul a b := gives_iff _ _

/-- A product is given in both orders of the operands. -/
theorem gives_mul_both {a b v : Word} (h : fpMul a b = v) : Gives (.mul a b) v ∧ Gives (.mul b a) v :=
  ⟨gives_mul_iff.2 h.symm, gives_mul_iff.2 ((fpMul_comm b a).trans h).symm⟩

theorem isNan_of_isZero {r : Word} (h : isZero r = true) : isNan r = false := by
  simp [isNan, ((isZero_iff r).1 h).2]

theorem isFinite_of_isZero {r : Word} (h : isZero r = true) : isFinite r = true := by
  simp [isFinite, expo_eq_zero_of_isZero h]

theorem fpMul_of_isNan {a b : Word} (h : isNan a = true ∨ isNan b = true) : fpMul a b = Pat.cnan :=
  if_pos (by simpa using h)

theorem fpMul_of_isInf_of_isZero {a b : Word} (ha : isInf a = true) (hb : isZero b = true) : fpMul a b = Pat.cnan := by
  simp [fpMul, isNan_of_isInf ha, isNan_of_isZero hb, ha, hb]

theorem fpMul_of_isInf {a b : Word} (ha : isInf a = true) (hb : isNan b = false) (hzb : isZero b = false) :
    fpMul a b = pattern (xorSign a b) 0xFF 0 := by
  have hza : isZero a = false := by simp [isZero, ((isInf_iff a).1 ha).1]
  simp [fpMul, isNan_of_isInf ha, hb, ha, hza, hzb]

theorem fpMul_of_isZero {a b : Word} (ha : isZero a = true) (hb : isFinite b = true) :
    fpMul a b = pattern (xorSign a b) 0 0 := by
  rcases fpMul_cases (isFinite_of_isZero ha) hb with ⟨-, h⟩ | ⟨hza, -⟩
  · exact h
  · simp [ha] at hza

/-- Settles O32: the lines of R125, each in both orders of the operands. -/
theorem mulSpecialOperands : Obligations.MulSpecialOperands := fun a b => by
  refine ⟨fun h => ?_, fun ha hb => ?_, fun ha hb hzb => ?_, fun ha hb => ?_⟩
  · exact gives_mul_iff.2 (fpMul_of_isNan h).symm
  · exact gives_mul_both (fpMul_of_isInf_of_isZero ha hb)
  · exact gives_mul_both (fpMul_of_isInf ha hb hzb)
  · exact gives_mul_both (fpMul_of_isZero ha hb)

/-! ## Special quotients (R130) -/

theorem gives_div_iff {a b v : Word} : Gives (.div a b) v ↔ v = fpDiv a b := gives_iff _ _

theorem fpDiv_of_isNan {a b : Word} (h : isNan a = true ∨ isNan b = true) : fpDiv a b = Pat.cnan :=
  if_pos (by simpa using h)

theorem fpDiv_of_isInf_of_isInf {a b : Word} (ha : isInf a = true) (hb : isInf b = true) : fpDiv a b = Pat.cnan := by
  simp [fpDiv, isNan_of_isInf ha, isNan_of_isInf hb, ha, hb]

theorem fpDiv_of_isInf_of_isFinite {a b : Word} (ha : isInf a = true) (hb : isFinite b = true) :
    fpDiv a b = pattern (xorSign a b) 0xFF 0 := by
  simp [fpDiv, isNan_of_isInf ha, isNan_of_isFinite hb, ha, isInf_of_isFinite hb]

theorem fpDiv_of_isFinite_of_isInf {a b : Word} (ha : isFinite a = true) (hb : isInf b = true) :
    fpDiv a b = pattern (xorSign a b) 0 0 := by
  simp [fpDiv, isNan_of_isFinite ha, isNan_of_isInf hb, isInf_of_isFinite ha, hb]

/-- Of finite operands at least one of which is zero, the quotient is told by which one is. -/
theorem fpDiv_of_isFinite_of_zero {a b : Word} (ha : isFinite a = true) (hb : isFinite b = true)
    (hz : isZero a = true ∨ isZero b = true) : fpDiv a b =
      if isZero b then if isZero a then Pat.cnan else pattern (xorSign a b) 0xFF 0 else pattern (xorSign a b) 0 0 := by
  have hza : isZero b = false → isZero a = true := fun h => by simpa [h] using hz
  rw [fpDiv, isNan_of_isFinite ha, isNan_of_isFinite hb, isInf_of_isFinite ha, isInf_of_isFinite hb]
  cases h : isZero b
  · simp [hza h]
  · simp

/-- Settles O35: the lines of R130, in the rule's order. -/
theorem divSpecialOperands : Obligations.DivSpecialOperands := fun a b => by
  simp only [gives_div_iff]
  refine ⟨fun h => ?_, fun ha hb => ?_, fun ha hb => ?_, fun ha hb => ?_, fun hza hzb => ?_, fun ha hza hzb => ?_,
    fun hza hb hzb => ?_⟩
  · exact (fpDiv_of_isNan h).symm
  · exact (fpDiv_of_isInf_of_isInf ha hb).symm
  · exact (fpDiv_of_isInf_of_isFinite ha hb).symm
  · exact (fpDiv_of_isFinite_of_isInf ha hb).symm
  · rw [fpDiv_of_isFinite_of_zero (isFinite_of_isZero hza) (isFinite_of_isZero hzb) (.inl hza), if_pos hzb, if_pos hza]
  · rw [fpDiv_of_isFinite_of_zero ha (isFinite_of_isZero hzb) (.inr hzb), if_pos hzb, hza]
    rfl
  · rw [fpDiv_of_isFinite_of_zero (isFinite_of_isZero hza) hb (.inl hza), hzb]
    rfl

/-! ## The sign of a quotient (R132 item 1) -/

@[simp] theorem isZero_fneg (r : Word) : isZero (fneg r) = isZero r := by simp [isZero]

@[simp] theorem norm_fneg (r : Word) : norm (fneg r) = norm r := by simp [norm]

@[simp] theorem xorSign_fneg_left (a b : Word) : xorSign (fneg a) b = !xorSign a b := by simp [xorSign]

@[simp] theorem xorSign_fneg_right (a b : Word) : xorSign a (fneg b) = !xorSign a b := by simp [xorSign]

theorem fneg_pattern (s : Bool) (e m : Nat) : fneg (pattern s e m) = pattern (!s) e m :=
  eq_of_fields (by simp) (by simp) (by simp)

/-- No part of `pack` but the sign looks at the sign. -/
theorem fneg_pack (s : Bool) (m : Nat) (e : Int) : fneg (pack s m e) = pack (!s) m e := by
  simp only [pack, apply_ite fneg, fneg_pattern]

theorem divDatapath_fneg_left (a b : Word) : divDatapath (fneg a) b = fneg (divDatapath a b) := by
  simp only [divDatapath, norm_fneg, xorSign_fneg_left, apply_ite fneg, fneg_pack]

theorem divDatapath_fneg_right (a b : Word) : divDatapath a (fneg b) = fneg (divDatapath a b) := by
  simp only [divDatapath, norm_fneg, xorSign_fneg_right, apply_ite fneg, fneg_pack]

/-- Settles O36: the datapath divides magnitudes, and a flipped sign bit flips the sign it packs. -/
theorem divSignRule : Obligations.DivSignRule := fun a b ha hza hb hzb => by
  obtain ⟨m, e, -, hpack, -⟩ := fpDiv_spec ha hza hb hzb
  refine ⟨fpDiv a b, gives_div a b, ?_, ?_, ?_⟩
  · rw [hpack]
    exact sgn_pack _ _ _
  · rw [gives_div_iff, fpDiv_of_finite ha hza hb hzb, fpDiv_of_finite (by simpa) (by simpa) hb hzb,
      divDatapath_fneg_left]
  · rw [gives_div_iff, fpDiv_of_finite ha hza hb hzb, fpDiv_of_finite ha hza (by simpa) (by simpa),
      divDatapath_fneg_right]

/-! ## 1 as operand (R127, R132) -/

theorem pattern_of_isInf {r : Word} (h : isInf r = true) : pattern (sgn r) 0xFF 0 = r := by
  obtain ⟨he, hm⟩ := (isInf_iff r).1 h
  rw [← he, ← hm, pattern_fields]

theorem pattern_of_isZero {r : Word} (h : isZero r = true) : pattern (sgn r) 0 0 = r := by
  have hr := pattern_fields r
  obtain ⟨he, hm⟩ := (isZero_iff r).1 h
  rwa [he, hm] at hr

/-- `pack` undoes `norm`: below the normal range it shifts back what the loop of R90 shifted. -/
theorem pack_norm {r : Word} (hf : isFinite r = true) (hz : isZero r = false) :
    pack (sgn r) (norm r).1 (norm r).2 = r := by
  by_cases h0 : expo r = 0
  · have hm := mant_lt r
    have hm0 : mant r ≠ 0 := fun h => by simp [isZero, h0, h] at hz
    obtain ⟨k, hk, hloop, hlo, -⟩ := normLoop_spec 23 (mant r) 1 (by omega) (by omega)
    have hk0 : k ≠ 0 := by rintro rfl; omega
    have hnorm : norm r = (mant r * 2 ^ k, 1 - (k : Int)) := (if_neg (by simpa using h0)).trans hloop
    have hshift : (mant r * 2 ^ k) >>> k = mant r := by
      rw [Nat.shiftRight_eq_div_pow, Nat.mul_div_cancel _ (by positivity)]
    rw [hnorm, pack, if_neg (by omega), if_neg (by omega), show (1 - (1 - (k : Int))).toNat = k by omega]
    dsimp only
    rw [if_neg (by omega), hshift, ← h0, pattern_fields]
  · rw [norm_of_normal h0]
    exact pack_fields hf h0

theorem norm_one : norm Pat.one = (2 ^ 23, 127) := by decide

theorem xorSign_one (a : Word) : xorSign a Pat.one = sgn a := Bool.xor_false _

theorem keptProduct_mul_two_pow (s : Bool) (m : Nat) : keptProduct s (m * 2 ^ 23) = m := by
  unfold keptProduct
  split <;> omega

theorem fpMul_one {a : Word} (h : isNan a = false) : fpMul a Pat.one = a := by
  cases hi : isInf a
  · have hf := isFinite_of_not h hi
    cases hz : isZero a
    · have hlt := (norm_spec a hf hz).2.1
      rw [fpMul_of_finite hf hz (by decide) (by decide), xorSign_one, norm_one, keptProduct_mul_two_pow,
        if_neg (by omega), add_sub_cancel_right, pack_norm hf hz]
    · rw [fpMul_of_isZero hz (by decide), xorSign_one, pattern_of_isZero hz]
  · rw [fpMul_of_isInf hi (by decide) (by decide), xorSign_one, pattern_of_isInf hi]

/-- Where the dividend's significand is not the smaller, the quotient has its leading one at bit 23 and is packed as it
is (R131). -/
theorem fpDiv_of_norm_le {a b : Word} (ha : isFinite a = true) (hza : isZero a = false) (hb : isFinite b = true)
    (hzb : isZero b = false) (h : (norm b).1 ≤ (norm a).1) : fpDiv a b =
      pack (xorSign a b) ((norm a).1 * 2 ^ 23 / (norm b).1) ((norm a).2 - (norm b).2 + 127) := by
  have hT := truncatedQuotient_of_le (norm_spec a ha hza).2.1 (norm_spec b hb hzb).1 h
  have hbit : ((norm a).1 * 2 ^ 23 / (norm b).1).testBit 23 = true := by
    have := hT.lower
    have := hT.upper
    rw [Nat.testBit_eq_decide_div_mod_eq, decide_eq_true_iff]
    omega
  rw [fpDiv_of_finite ha hza hb hzb, divDatapath]
  simp only [Nat.shiftLeft_eq]
  rw [if_pos hbit]

theorem fpDiv_one {a : Word} (h : isNan a = false) : fpDiv a Pat.one = a := by
  cases hi : isInf a
  · have hf := isFinite_of_not h hi
    cases hz : isZero a
    · have hle : (norm Pat.one).1 ≤ (norm a).1 := by
        rw [norm_one]
        exact (norm_spec a hf hz).1
      rw [fpDiv_of_norm_le hf hz (by decide) (by decide) hle, xorSign_one, norm_one,
        Nat.mul_div_cancel _ (by positivity), sub_add_cancel, pack_norm hf hz]
    · rw [fpDiv_of_isFinite_of_zero hf (by decide) (.inl hz), if_neg (by decide), xorSign_one, pattern_of_isZero hz]
  · rw [fpDiv_of_isInf_of_isFinite hi (by decide), xorSign_one, pattern_of_isInf hi]

theorem fpDiv_self {a : Word} (hf : isFinite a = true) (hz : isZero a = false) : fpDiv a a = Pat.one := by
  have hpos : 0 < (norm a).1 := lt_of_lt_of_le (by norm_num) (norm_spec a hf hz).1
  rw [fpDiv_of_norm_le hf hz hf hz le_rfl, Nat.mul_div_cancel_left _ hpos, sub_self, xorSign, Bool.xor_self]
  decide

/-- Settles O34: a product or a quotient by 1 has the significand and the exponent of the operand, which `pack` puts
together again (`pack_norm`); those of a quotient by itself are 1's. -/
theorem oneIsNeutral : Obligations.OneIsNeutral := fun _ =>
  ⟨fun h => ⟨(gives_mul_both (fpMul_one h)).1, (gives_mul_both (fpMul_one h)).2, gives_div_iff.2 (fpDiv_one h).symm⟩,
    fun hf hz => gives_div_iff.2 (fpDiv_self hf hz).symm⟩

end Sys2Proof.Machine

/-! PROOFS of the rounding family (43_rounding.md R145 to R149). On magnitudes the four operations differ only in when
they go up: the unit gives an integer with the operand's sign, the one below the magnitude or the one above it. -/

namespace Sys2Proof.Machine

/-! ## The magnitude a mode rounds to -/

/-- What a mode makes of a magnitude `x`, when the operand's sign bit is `neg`. -/
def roundMagnitude (neg : Bool) (x : Rat) : RoundMode → Int
  | .floor => if neg then ⌈x⌉ else ⌊x⌋
  | .ceil => if neg then ⌊x⌋ else ⌈x⌉
  | .round => ⌊x + 1 / 2⌋
  | .trunc => ⌊x⌋

/-- Whether a mode takes the larger one of the two integers next to a magnitude; `half` says that the fraction is 0.5 or
more. -/
def roundsUp (neg half : Bool) : RoundMode → Bool
  | .floor => neg
  | .ceil => !neg
  | .round => half
  | .trunc => false

theorem roundMagnitude_natCast (neg : Bool) (n : Nat) (mode : RoundMode) : roundMagnitude neg n mode = n := by
  have hhalf : ⌊(n : Rat) + 1 / 2⌋ = n := by
    rw [Int.floor_eq_iff]
    push_cast
    constructor <;> linarith
  cases mode with
  | floor | ceil => simp [roundMagnitude]
  | round => exact hhalf
  | trunc => exact Int.floor_natCast n

theorem roundMagnitude_of_between {n : Nat} {x : Rat} (hl : n < x) (hu : x < n + 1) {half : Bool}
    (hh : half = true ↔ n + 1 / 2 ≤ x) (neg : Bool) (mode : RoundMode) :
    roundMagnitude neg x mode = if roundsUp neg half mode then (n + 1 : Nat) else n := by
  have hfloor : ⌊x⌋ = n := Int.floor_eq_iff.2 ⟨hl.le, hu⟩
  have hceil : ⌈x⌉ = (n + 1 : Nat) := by
    rw [Int.ceil_eq_iff]
    push_cast
    constructor <;> linarith
  cases mode with
  | floor | ceil => cases neg <;> simp [roundMagnitude, roundsUp, hfloor, hceil]
  | trunc => exact hfloor
  | round =>
    rw [roundMagnitude, roundsUp, Int.floor_eq_iff]
    cases half
    · have : x < n + 1 / 2 := by simpa using hh
      rw [if_neg Bool.false_ne_true, Int.cast_natCast]
      constructor <;> linarith
    · have := hh.1 rfl
      rw [if_pos rfl, Int.cast_natCast, Nat.cast_succ]
      constructor <;> linarith

/-! ## A pattern of a given sign and integer magnitude -/

/-- The finite pattern `v` has the sign bit `s` and the magnitude `n`; `s` tells the two zeros apart. -/
structure IsSignedInt (v : Word) (s : Bool) (n : Int) : Prop where
  finite : isFinite v = true
  sgn : sgn v = s
  abs_val : |val v| = n

theorem isZero_iff_abs_val {r : Word} (hf : isFinite r = true) : isZero r = true ↔ |val r| = 0 := by
  constructor
  · intro hz
    obtain ⟨he, hm⟩ := (isZero_iff r).1 hz
    simp [abs_val, absUnits, magnitude, he, hm]
  · intro h
    by_contra hz
    exact (abs_val_pos hf (Bool.eq_false_iff.2 hz)).ne' h

/-- The normalised exponent grows with the magnitude. -/
theorem norm_exponent_le {v w : Word} (hv : isFinite v = true) (hzv : isZero v = false) (hw : isFinite w = true)
    (hzw : isZero w = false) (h : |val v| ≤ |val w|) : (norm v).2 ≤ (norm w).2 := by
  obtain ⟨hlv, -⟩ := norm_spec v hv hzv
  obtain ⟨-, huw, -⟩ := norm_spec w hw hzw
  refine not_lt.1 fun hlt => absurd h (not_le.2 ?_)
  calc |val w| = (norm w).1 * (2 : Rat) ^ ((norm w).2 - 150) := abs_val_eq_norm hw hzw
    _ < 2 ^ 24 * (2 : Rat) ^ ((norm w).2 - 150) := mul_lt_mul_of_pos_right (by exact_mod_cast huw) (by positivity)
    _ = 2 ^ 23 * (2 * (2 : Rat) ^ ((norm w).2 - 150)) := by ring
    _ ≤ 2 ^ 23 * (2 : Rat) ^ ((norm v).2 - 150) := mul_le_mul_of_nonneg_left (two_mul_zpow_le hlt) (by positivity)
    _ ≤ (norm v).1 * (2 : Rat) ^ ((norm v).2 - 150) :=
      mul_le_mul_of_nonneg_right (by exact_mod_cast hlv) (by positivity)
    _ = |val v| := (abs_val_eq_norm hv hzv).symm

/-- A finite pattern is determined by its sign bit and its magnitude. -/
theorem eq_of_abs_val {v w : Word} (hv : isFinite v = true) (hw : isFinite w = true) (hs : sgn v = sgn w)
    (h : |val v| = |val w|) : v = w := by
  have hzz : isZero v = isZero w := by
    rw [Bool.eq_iff_iff, isZero_iff_abs_val hv, isZero_iff_abs_val hw, h]
  cases hz : isZero v <;> have hz' := hzz.symm.trans hz
  · have he : (norm v).2 = (norm w).2 :=
      le_antisymm (norm_exponent_le hv hz hw hz' h.le) (norm_exponent_le hw hz' hv hz h.ge)
    rw [abs_val_eq_norm hv hz, abs_val_eq_norm hw hz', he] at h
    have hm : (norm v).1 = (norm w).1 := Nat.cast_injective (mul_right_cancel₀ (by positivity) h)
    rw [← pack_norm hv hz, ← pack_norm hw hz', hs, he, hm]
  · rw [← pattern_of_isZero hz, ← pattern_of_isZero hz', hs]

theorem IsSignedInt.unique {v w : Word} {s : Bool} {n : Int} (hv : IsSignedInt v s n) (hw : IsSignedInt w s n) : v = w :=
  eq_of_abs_val hv.finite hw.finite (hv.sgn.trans hw.sgn.symm) (hv.abs_val.trans hw.abs_val.symm)

theorem IsSignedInt.fneg {v : Word} {s : Bool} {n : Int} (h : IsSignedInt v s n) : IsSignedInt (fneg v) (!s) n where
  finite := (isFinite_fneg v).trans h.finite
  sgn := by rw [sgn_fneg, h.sgn]
  abs_val := by rw [val_fneg, abs_neg, h.abs_val]

theorem isSignedInt_self {a : Word} {n : Nat} (hf : isFinite a = true) (h : |val a| = n) (mode : RoundMode) :
    IsSignedInt a (sgn a) (roundMagnitude (sgn a) |val a| mode) :=
  ⟨hf, rfl, by rw [h, roundMagnitude_natCast, Int.cast_natCast]⟩

theorem absUnits_of_normal {r : Word} (h : expo r ≠ 0) : absUnits r = (mant r + 2 ^ 23) * 2 ^ (expo r - 1) := by
  rw [absUnits, magnitude, if_pos h, Nat.shiftLeft_eq, show max (expo r) 1 = expo r by omega]
  rfl

/-- The word with the significand `A` at the exponent field `E`. A carry out of the significand goes into the exponent
field, and is the next power of two there (R145). -/
theorem fields_of_toNat {r : Word} {s : Bool} {E A : Nat} (hE : 1 ≤ E) (hE' : E ≤ 253) (hl : 2 ^ 23 ≤ A)
    (hu : A ≤ 2 ^ 24) (h : r.toNat = (if s then 2 ^ 31 else 0) + (E - 1) * 2 ^ 23 + A) :
    isFinite r = true ∧ sgn r = s ∧ absUnits r = A * 2 ^ (E - 1) := by
  have hs : sgn r = s := by
    rw [sgn_eq]
    cases s <;> simp at h ⊢ <;> omega
  have hc : A < 2 ^ 24 ∧ expo r = E ∧ mant r = A - 2 ^ 23 ∨ A = 2 ^ 24 ∧ expo r = E + 1 ∧ mant r = 0 := by
    rw [expo_eq, mant_eq]
    split at h <;> omega
  refine ⟨isFinite_of_expo_lt (by omega), hs, ?_⟩
  rw [absUnits_of_normal (by omega)]
  rcases hc with ⟨-, he, hm⟩ | ⟨hA, he, hm⟩
  · rw [he, hm, Nat.sub_add_cancel hl]
  · rw [he, hm, hA, zero_add, Nat.add_sub_cancel, ← Nat.sub_add_cancel hE, pow_succ, Nat.add_sub_cancel]
    ring

theorem abs_val_of_absUnits {r : Word} {E k A : Nat} (hE : E + k = 150) (hk : k ≤ 149)
    (h : absUnits r = A * 2 ^ (E - 1)) : |val r| = (A : Rat) / 2 ^ k := by
  have h149 : (2 : Rat) ^ 149 = 2 ^ (E - 1) * 2 ^ k := by rw [← pow_add]; congr 1; omega
  rw [abs_val, h, h149]
  push_cast
  field_simp

/-- The integer `n` in fixed point: `k` bits of the mantissa have a weight below 1. -/
theorem isSignedInt_of_toNat {r : Word} {s : Bool} {E k n : Nat} (hE : E + k = 150) (hk : k ≤ 23)
    (hl : 2 ^ 23 ≤ n * 2 ^ k) (hu : n * 2 ^ k ≤ 2 ^ 24)
    (h : r.toNat = (if s then 2 ^ 31 else 0) + (E - 1) * 2 ^ 23 + n * 2 ^ k) :
    IsSignedInt r s n := by
  obtain ⟨hf, hs, hA⟩ := fields_of_toNat (by omega) (by omega) hl hu h
  refine ⟨hf, hs, ?_⟩
  rw [abs_val_of_absUnits hE (by omega) hA]
  push_cast
  field_simp

/-! ## The branches of the unit (R145) -/

theorem signBit_eq (a : Word) : signBit a = if sgn a then 0x80000000#32 else 0 := by
  apply BitVec.eq_of_toNat_eq
  rw [signBit_toNat]
  split <;> rfl

theorem roundSmall_eq (a : Word) (e : Int) (mode : RoundMode) : roundSmall (signBit a) e mode =
    if roundsUp (sgn a) (decide (e = -1)) mode then signBit a ||| Pat.one else signBit a := by
  rw [signBit_eq]
  cases mode with
  | floor | ceil => cases sgn a <;> rfl
  | round => simp [roundSmall, roundsUp]
  | trunc => rfl

theorem roundPick_eq (a frac half t up : Word) (mode : RoundMode) : roundPick (signBit a) frac half t up mode =
    if roundsUp (sgn a) (decide (half ≤ frac)) mode then up else t := by
  rw [signBit_eq]
  cases mode with
  | floor | ceil => cases sgn a <;> rfl
  | round => simp [roundPick, roundsUp]
  | trunc => rfl

theorem roundUnit_of_isNan {a : Word} (h : isNan a = true) (mode : RoundMode) : roundUnit mode a = Pat.cnan := if_pos h

theorem roundUnit_of_large {a : Word} (hn : isNan a = false) (h : 150 ≤ expo a) (mode : RoundMode) :
    roundUnit mode a = a := by
  rw [roundUnit, hn, if_neg Bool.false_ne_true]
  exact if_pos (by omega)

theorem roundUnit_of_isInf {a : Word} (h : isInf a = true) (mode : RoundMode) : roundUnit mode a = a :=
  roundUnit_of_large (isNan_of_isInf h) (by rw [((isInf_iff a).1 h).1]; decide) mode

theorem roundUnit_of_small {a : Word} (h : expo a < 127) (mode : RoundMode) : roundUnit mode a =
    if isZero a then a
    else if roundsUp (sgn a) (decide (expo a = 126)) mode then signBit a ||| Pat.one else signBit a := by
  have hhalf : (expo a : Int) - 127 = -1 ↔ expo a = 126 := by omega
  rw [roundUnit, isNan_of_expo_lt (by omega), if_neg Bool.false_ne_true]
  dsimp only
  rw [if_neg (by omega), if_pos (by omega), roundSmall_eq]
  simp only [hhalf]

/-- The three words that R145 shifts by the exponent: the mask of the fraction, the bits of weight 1 and 0.5. -/
theorem roundWords_shifted : ∀ j < 23, (0x007FFFFF#32 >>> (22 - j)).toNat = 2 ^ (j + 1) - 1 ∧
    0x00800000#32 >>> (22 - j) = BitVec.ofNat 32 (2 ^ (j + 1)) ∧ (0x00400000#32 >>> (22 - j)).toNat = 2 ^ j := by
  decide

theorem and_toNat_of_mask (a : Word) {m : Word} {k : Nat} (h : m.toNat = 2 ^ k - 1) :
    (a &&& m).toNat = a.toNat % 2 ^ k := by
  rw [BitVec.toNat_and, h, Nat.and_two_pow_sub_one_eq_mod]

theorem and_add_and_not (a m : Word) : (a &&& m) + (a &&& ~~~m) = a := by
  rw [BitVec.add_eq_or_of_and_eq_zero]
  · rw [← BitVec.and_or_distrib_left, BitVec.or_not_self, BitVec.and_allOnes]
  · ext i hi
    simpa using fun _ hm _ => hm

/-- Clearing the lowest `k` bits of a word. -/
theorem and_not_eq_of_mask (a : Word) {m : Word} {k : Nat} (h : m.toNat = 2 ^ k - 1) :
    a &&& ~~~m = BitVec.ofNat 32 (a.toNat / 2 ^ k * 2 ^ k) := by
  have hlow : a &&& m = BitVec.ofNat 32 (a.toNat % 2 ^ k) := by
    rw [← and_toNat_of_mask a h, BitVec.ofNat_toNat, BitVec.setWidth_eq]
  apply (BitVec.add_right_inj (a &&& m)).1
  rw [and_add_and_not, hlow, ← BitVec.ofNat_add, mul_comm, Nat.mod_add_div, BitVec.ofNat_toNat, BitVec.setWidth_eq]

/-- Between 1 and `2^23`, with `j + 1` bits of the pattern below weight 1, the unit cuts them off, or puts the pattern
at the next multiple. -/
theorem roundUnit_of_fraction {a : Word} {j : Nat} (hj : j < 23) (he : expo a + j = 149) (mode : RoundMode) :
    roundUnit mode a =
      if a.toNat % 2 ^ (j + 1) = 0 then a
      else if roundsUp (sgn a) (decide (2 ^ j ≤ a.toNat % 2 ^ (j + 1))) mode then
        BitVec.ofNat 32 ((a.toNat / 2 ^ (j + 1) + 1) * 2 ^ (j + 1))
      else BitVec.ofNat 32 (a.toNat / 2 ^ (j + 1) * 2 ^ (j + 1)) := by
  obtain ⟨hmask, hunit, hhalf⟩ := roundWords_shifted j hj
  have hfrac := and_toNat_of_mask a hmask
  have hzero : a &&& 0x007FFFFF#32 >>> (22 - j) = 0 ↔ a.toNat % 2 ^ (j + 1) = 0 := by
    rw [← hfrac, ← BitVec.toNat_inj]
    rfl
  rw [roundUnit, isNan_of_expo_lt (by omega), if_neg Bool.false_ne_true]
  dsimp only
  rw [if_neg (by omega), if_neg (by omega), show ((expo a : Int) - 127).toNat = 22 - j by omega, roundPick_eq,
    and_not_eq_of_mask a hmask, hunit, ← BitVec.ofNat_add, ← Nat.succ_mul]
  simp only [hzero, BitVec.le_def, hfrac, hhalf]

/-! ## What the unit gives for a finite operand -/

/-- Strictly between two integers, the unit's choice between two patterns is right when they stand for the two
integers. -/
theorem isSignedInt_ite {a t up : Word} {n : Nat} {half : Bool} (hl : n < |val a|) (hu : |val a| < n + 1)
    (hh : half = true ↔ n + 1 / 2 ≤ |val a|) (ht : IsSignedInt t (sgn a) n)
    (hup : IsSignedInt up (sgn a) (n + 1 : Nat)) (mode : RoundMode) :
    IsSignedInt (if roundsUp (sgn a) half mode then up else t) (sgn a) (roundMagnitude (sgn a) |val a| mode) := by
  rw [roundMagnitude_of_between hl hu hh]
  split <;> assumption

theorem absUnits_lt {r : Word} {E : Nat} (hE : 1 ≤ E) (h : expo r ≤ E) : absUnits r < 2 ^ (23 + E) := by
  have hm := mant_lt r
  have hmag : magnitude r < 2 ^ 24 := by unfold magnitude; split <;> omega
  calc absUnits r = magnitude r * 2 ^ (max (expo r) 1 - 1) := Nat.shiftLeft_eq _ _
    _ ≤ magnitude r * 2 ^ (E - 1) := Nat.mul_le_mul_left _ (Nat.pow_le_pow_right two_pos (by omega))
    _ < 2 ^ 24 * 2 ^ (E - 1) := Nat.mul_lt_mul_of_pos_right hmag (by positivity)
    _ = 2 ^ (23 + E) := by rw [← pow_add]; congr 1; omega

theorem abs_val_lt_one {r : Word} (h : expo r < 127) : |val r| < 1 := by
  have hu : (absUnits r : Rat) < 2 ^ 149 := by exact_mod_cast absUnits_lt (E := 126) (by omega) (by omega)
  rw [abs_val]
  exact (div_lt_one (by positivity)).2 hu

theorem half_le_abs_val_iff {r : Word} (h : expo r < 127) : expo r = 126 ↔ 1 / 2 ≤ |val r| := by
  have hunits : 1 / 2 ≤ |val r| ↔ 2 ^ 148 ≤ absUnits r := by
    rw [abs_val, le_div_iff₀ (by positivity), ← Nat.cast_le (α := Rat)]
    norm_num
  rw [hunits]
  constructor
  · intro he
    rw [absUnits_of_normal (by omega), he]
    omega
  · intro hle
    by_contra hne
    exact absurd (absUnits_lt (E := 125) (by omega) (by omega : expo r ≤ 125)) (by omega)

theorem isSignedInt_signBit (a : Word) : IsSignedInt (signBit a) (sgn a) 0 := by
  have hz : isZero (signBit a) = true := by
    rcases signBit_cases a with h | h <;> rw [h] <;> decide
  have hf := isFinite_of_isZero hz
  refine ⟨hf, ?_, (isZero_iff_abs_val hf).1 hz⟩
  rw [signBit_eq]
  cases sgn a <;> rfl

theorem isSignedInt_signBit_or_one (a : Word) : IsSignedInt (signBit a ||| Pat.one) (sgn a) 1 := by
  refine isSignedInt_of_toNat (E := 127) (k := 23) (n := 1) rfl le_rfl (by norm_num) (by norm_num) ?_
  rw [signBit_or_toNat a Pat.one (by decide), Nat.add_assoc]
  rfl

theorem isSignedInt_roundUnit_of_small {a : Word} (h : expo a < 127) (mode : RoundMode) :
    IsSignedInt (roundUnit mode a) (sgn a) (roundMagnitude (sgn a) |val a| mode) := by
  have hf : isFinite a = true := isFinite_of_expo_lt (by omega)
  rw [roundUnit_of_small h]
  split
  · next hz => exact isSignedInt_self (n := 0) hf ((isZero_iff_abs_val hf).1 hz) mode
  · next hz =>
    refine isSignedInt_ite (n := 0) ?_ ?_ ?_ (isSignedInt_signBit a) (isSignedInt_signBit_or_one a) mode
    · exact abs_val_pos hf (by simpa using hz)
    · simpa using abs_val_lt_one h
    · simpa using half_le_abs_val_iff h

theorem isSignedInt_roundUnit_of_large {a : Word} (hf : isFinite a = true) (h : 150 ≤ expo a) (mode : RoundMode) :
    IsSignedInt (roundUnit mode a) (sgn a) (roundMagnitude (sgn a) |val a| mode) := by
  rw [roundUnit_of_large (isNan_of_isFinite hf) h]
  refine isSignedInt_self (n := (mant a + 2 ^ 23) * 2 ^ (expo a - 150)) hf ?_ mode
  rw [abs_val, absUnits_of_normal (by omega), div_eq_iff (by positivity),
    show expo a - 1 = expo a - 150 + 149 by omega, pow_add]
  push_cast
  ring

/-- A pattern between 1 and `2^23` in fixed point: the significand `A` has `k` bits of a weight below 1, and the bits
above it, the sign and the exponent field, are a multiple `B` of `2^k`. -/
theorem exists_fixedPoint {a : Word} {k : Nat} (hk : k ≤ 23) (he : expo a + k = 150) :
    ∃ A B : Nat, a.toNat = 2 ^ k * B + A ∧ 2 ^ k * B = (if sgn a then 2 ^ 31 else 0) + (expo a - 1) * 2 ^ 23 ∧
      2 ^ 23 ≤ A ∧ A < 2 ^ 24 ∧ |val a| = (A : Rat) / 2 ^ k := by
  have hm := mant_lt a
  have hdvd : 2 ^ k ∣ (if sgn a then 2 ^ 31 else 0) + (expo a - 1) * 2 ^ 23 := by
    refine Nat.dvd_add ?_ (Nat.dvd_mul_left_of_dvd (Nat.pow_dvd_pow 2 hk) _)
    split
    · exact Nat.pow_dvd_pow 2 (by omega)
    · exact Nat.dvd_zero _
  obtain ⟨B, hB⟩ := hdvd
  refine ⟨mant a + 2 ^ 23, B, ?_, hB.symm, by omega, by omega, ?_⟩
  · rw [← hB, toNat_fields a]
    omega
  · exact abs_val_of_absUnits he (by omega) (absUnits_of_normal (by omega))

/-- The integers next to a significand are, in its fixed point, still in its range. -/
theorem fixedPoint_bounds {A k : Nat} (hk : k ≤ 23) (hl : 2 ^ 23 ≤ A) (hu : A < 2 ^ 24) :
    2 ^ 23 ≤ A / 2 ^ k * 2 ^ k ∧ (A / 2 ^ k + 1) * 2 ^ k ≤ 2 ^ 24 := by
  have h23 : 2 ^ 23 = 2 ^ (23 - k) * 2 ^ k := by rw [← pow_add, Nat.sub_add_cancel hk]
  have h24 : 2 ^ 24 = 2 ^ (24 - k) * 2 ^ k := by rw [← pow_add, Nat.sub_add_cancel (by omega)]
  rw [h23] at hl ⊢
  rw [h24] at hu ⊢
  exact ⟨Nat.mul_le_mul_right _ ((Nat.le_div_iff_mul_le (by positivity)).2 hl),
    Nat.mul_le_mul_right _ ((Nat.div_lt_iff_lt_mul (by positivity)).2 hu)⟩

theorem isSignedInt_ofNat {s : Bool} {E k B n : Nat} (hE : E + k = 150) (hk : k ≤ 23)
    (hB : 2 ^ k * B = (if s then 2 ^ 31 else 0) + (E - 1) * 2 ^ 23) (hl : 2 ^ 23 ≤ n * 2 ^ k)
    (hu : n * 2 ^ k ≤ 2 ^ 24) : IsSignedInt (BitVec.ofNat 32 ((B + n) * 2 ^ k)) s n := by
  refine isSignedInt_of_toNat hE hk hl hu ?_
  rw [← hB, BitVec.toNat_ofNat, add_mul, mul_comm B]
  refine Nat.mod_eq_of_lt ?_
  split at hB <;> omega

/-- The integer part and the fraction of a number in fixed point. -/
theorem cast_div_two_pow (A k : Nat) : (A : Rat) / 2 ^ k = (A / 2 ^ k : Nat) + (A % 2 ^ k : Nat) / 2 ^ k := by
  have hA : (A : Rat) = 2 ^ k * (A / 2 ^ k : Nat) + (A % 2 ^ k : Nat) := by
    exact_mod_cast (Nat.div_add_mod A (2 ^ k)).symm
  rw [div_eq_iff (by positivity), add_mul, div_mul_cancel₀ _ (by positivity), mul_comm _ (2 ^ k : Rat), ← hA]

theorem isSignedInt_roundUnit_of_fraction {a : Word} {j : Nat} (hj : j < 23) (he : expo a + j = 149)
    (mode : RoundMode) : IsSignedInt (roundUnit mode a) (sgn a) (roundMagnitude (sgn a) |val a| mode) := by
  have hE : expo a + (j + 1) = 150 := by omega
  obtain ⟨A, B, hN, hB, hlo, hhi, hval⟩ := exists_fixedPoint (k := j + 1) hj hE
  obtain ⟨hnl, hnu⟩ := fixedPoint_bounds (k := j + 1) hj hlo hhi
  have hmod : a.toNat % 2 ^ (j + 1) = A % 2 ^ (j + 1) := by rw [hN, Nat.mul_add_mod]
  have hdiv : a.toNat / 2 ^ (j + 1) = B + A / 2 ^ (j + 1) := by rw [hN, Nat.mul_add_div (by positivity)]
  have hr : A % 2 ^ (j + 1) < 2 ^ (j + 1) := Nat.mod_lt _ (by positivity)
  rw [cast_div_two_pow] at hval
  rw [roundUnit_of_fraction hj he, hmod, hdiv]
  generalize A / 2 ^ (j + 1) = n at *
  generalize A % 2 ^ (j + 1) = r at *
  split
  · next h0 => exact isSignedInt_self (isFinite_of_expo_lt (by omega)) (by simpa [h0] using hval) mode
  · next h0 =>
    have hpos : 0 < (r : Rat) / 2 ^ (j + 1) := by positivity
    have hlt : (r : Rat) / 2 ^ (j + 1) < 1 := (div_lt_one (by positivity)).2 (by exact_mod_cast hr)
    have hhalf : 2 ^ j ≤ r ↔ 1 / 2 ≤ (r : Rat) / 2 ^ (j + 1) := by
      rw [le_div_iff₀ (by positivity), pow_succ, mul_comm, mul_one_div, mul_div_cancel_right₀ _ two_ne_zero]
      exact_mod_cast Iff.rfl
    refine isSignedInt_ite (by linarith) (by linarith) ?_ (isSignedInt_ofNat hE hj hB hnl (by linarith))
      (isSignedInt_ofNat hE hj hB (by linarith) hnu) mode
    rw [hval, decide_eq_true_iff, hhalf, add_le_add_iff_left]

/-- For a finite operand the unit gives the integer that the mode makes of its magnitude, with its sign bit (R145 to
R149). -/
theorem isSignedInt_roundUnit {a : Word} (hf : isFinite a = true) (mode : RoundMode) :
    IsSignedInt (roundUnit mode a) (sgn a) (roundMagnitude (sgn a) |val a| mode) := by
  by_cases hlt : expo a < 127
  · exact isSignedInt_roundUnit_of_small hlt mode
  · by_cases hle : 150 ≤ expo a
    · exact isSignedInt_roundUnit_of_large hf hle mode
    · exact isSignedInt_roundUnit_of_fraction (j := 149 - expo a) (by omega) (by omega) mode

/-! ## The four operations -/

theorem gives_floor_iff {a v : Word} : Gives (.floor a) v ↔ v = roundUnit .floor a := gives_iff _ _

theorem gives_ceil_iff {a v : Word} : Gives (.ceil a) v ↔ v = roundUnit .ceil a := gives_iff _ _

theorem gives_round_iff {a v : Word} : Gives (.round a) v ↔ v = roundUnit .round a := gives_iff _ _

theorem gives_trunc_iff {a v : Word} : Gives (.trunc a) v ↔ v = roundUnit .trunc a := gives_iff _ _

theorem IsSignedInt.val_eq {v : Word} {s : Bool} {n : Int} (h : IsSignedInt v s n) :
    val v = if s then -(n : Rat) else n := by
  rw [← h.abs_val, ← h.sgn]
  split
  · next hs => exact val_of_sgn_true hs
  · next hs => exact val_of_sgn_false (by simpa using hs)

theorem val_roundUnit_floor {a : Word} (hf : isFinite a = true) : val (roundUnit .floor a) = (⌊val a⌋ : Rat) := by
  rw [(isSignedInt_roundUnit hf .floor).val_eq]
  cases hs : sgn a
  · rw [val_of_sgn_false hs, abs_abs]
    rfl
  · rw [val_of_sgn_true hs, abs_neg, abs_abs, Int.floor_neg, Int.cast_neg]
    rfl

theorem val_roundUnit_ceil {a : Word} (hf : isFinite a = true) : val (roundUnit .ceil a) = (⌈val a⌉ : Rat) := by
  rw [(isSignedInt_roundUnit hf .ceil).val_eq]
  cases hs : sgn a
  · rw [val_of_sgn_false hs, abs_abs]
    rfl
  · rw [val_of_sgn_true hs, abs_neg, abs_abs, Int.ceil_neg, Int.cast_neg]
    rfl

/-- Settles O38: below zero the magnitude goes up, to its ceiling. -/
theorem floorIsGreatestIntegerNotAbove : Obligations.FloorIsGreatestIntegerNotAbove := fun a => by
  simp only [gives_floor_iff]
  refine ⟨fun hn => (roundUnit_of_isNan hn _).symm, fun hi => (roundUnit_of_isInf hi _).symm, fun hf => ?_⟩
  have h := isSignedInt_roundUnit hf .floor
  exact ⟨_, rfl, h.finite, val_roundUnit_floor hf, h.sgn⟩

/-- Settles O39: below zero the magnitude goes down, to 0 and the pattern `-0` between -1 and 0. -/
theorem ceilIsLeastIntegerNotBelow : Obligations.CeilIsLeastIntegerNotBelow := fun a => by
  simp only [gives_ceil_iff]
  refine ⟨fun hn => (roundUnit_of_isNan hn _).symm, fun hi => (roundUnit_of_isInf hi _).symm, fun hf => ?_⟩
  have h := isSignedInt_roundUnit hf .ceil
  exact ⟨_, rfl, h.finite, val_roundUnit_ceil hf, h.sgn⟩

/-- ROUND makes the same of a magnitude under either sign bit, so it commutes with the flip of the sign bit. -/
theorem roundUnit_round_fneg {a : Word} (hn : isNan a = false) :
    roundUnit .round (fneg a) = fneg (roundUnit .round a) := by
  cases hi : isInf a
  · have hf := isFinite_of_not hn hi
    have h := isSignedInt_roundUnit ((isFinite_fneg a).trans hf) .round
    rw [sgn_fneg, val_fneg, abs_neg] at h
    exact h.unique (isSignedInt_roundUnit hf .round).fneg
  · rw [roundUnit_of_isInf hi, roundUnit_of_isInf ((isInf_fneg a).trans hi)]

/-- Settles O40: both claims are about what ROUND makes of a magnitude. -/
theorem roundIsNearestTiesAway : Obligations.RoundIsNearestTiesAway := fun a => by
  simp only [gives_round_iff]
  refine ⟨fun hn => (roundUnit_of_isNan hn _).symm, fun hi => (roundUnit_of_isInf hi _).symm, fun hf => ?_, fun hn =>
    ⟨_, rfl, (roundUnit_round_fneg hn).symm⟩⟩
  have h := isSignedInt_roundUnit hf .round
  exact ⟨_, rfl, h.finite, h.abs_val, h.sgn⟩

/-- Toward zero is down for a clear sign bit and up for a set one. -/
theorem roundUnit_trunc {a : Word} (hn : isNan a = false) :
    roundUnit .trunc a = roundUnit (if sgn a then .ceil else .floor) a := by
  cases hi : isInf a
  · have hf := isFinite_of_not hn hi
    have h := isSignedInt_roundUnit hf (if sgn a then .ceil else .floor)
    have hmag : roundMagnitude (sgn a) |val a| (if sgn a then .ceil else .floor) = ⌊|val a|⌋ := by
      cases sgn a <;> rfl
    rw [hmag] at h
    exact (isSignedInt_roundUnit hf .trunc).unique h
  · rw [roundUnit_of_isInf hi, roundUnit_of_isInf hi]

/-- Settles O41: the sign bit tells which of the other two operations TRUNC is (`roundUnit_trunc`). -/
theorem truncIsIntegralPart : Obligations.TruncIsIntegralPart := fun a => by
  simp only [gives_trunc_iff]
  refine ⟨fun hn => (roundUnit_of_isNan hn _).symm, fun hi => (roundUnit_of_isInf hi _).symm, fun hf => ?_, fun hn =>
    ⟨_, rfl, ?_⟩⟩
  · have h := isSignedInt_roundUnit hf .trunc
    exact ⟨_, rfl, h.finite, h.abs_val, h.sgn⟩
  · rw [roundUnit_trunc hn]
    split
    · exact gives_ceil_iff.2 rfl
    · exact gives_floor_iff.2 rfl

end Sys2Proof.Machine

/-! PROOFS of the square-root family (44_sqrt.md R160 to R162). The loop leaves the integer square root of the scaled
significand. Its 25th bit is the rounding bit, and the root is never half-way between two results: its square would be
odd, and the scaled significand is even. So the result is the root's nearest integer at the result's exponent, and every
other pattern is another such integer, or lies below all the significands of that exponent. -/

namespace Sys2Proof.Machine

/-! ## Special operands (R160) -/

theorem gives_sqrt_iff {a v : Word} : Gives (.sqrt a) v ↔ v = fpSqrt a := gives_iff _ _

theorem fpSqrt_of_isNan {a : Word} (h : isNan a = true) : fpSqrt a = Pat.cnan := if_pos h

theorem fpSqrt_of_isZero {a : Word} (h : isZero a = true) : fpSqrt a = a := by
  rw [fpSqrt, isNan_of_isZero h, if_neg Bool.false_ne_true, if_pos h]

theorem fpSqrt_of_negative {a : Word} (hz : isZero a = false) (hs : sgn a = true) : fpSqrt a = Pat.cnan := by
  rw [fpSqrt, hz, if_neg Bool.false_ne_true, if_pos hs, ite_self]

theorem fpSqrt_of_positive {a : Word} (hf : isFinite a = true) (hz : isZero a = false) (hs : sgn a = false) :
    fpSqrt a = sqrtDatapath a := by
  simp [fpSqrt, isNan_of_isFinite hf, isInf_of_isFinite hf, hz, hs]

/-- Settles O42: the lines of R160 before the datapath. -/
theorem sqrtSpecialOperands : Obligations.SqrtSpecialOperands := fun _ =>
  ⟨fun hn => gives_sqrt_iff.2 (fpSqrt_of_isNan hn).symm,
    fun hz => gives_sqrt_iff.2 (fpSqrt_of_isZero hz).symm,
    fun hz hs => gives_sqrt_iff.2 (fpSqrt_of_negative hz hs).symm,
    gives_sqrt_iff.2 rfl⟩

/-! ## The digit loop (R162) -/

/-- The loop's invariant, `n` iterations before its end: `q` holds the digits found of the root of `T`, `s` is twice `q`,
and `ix` is the remainder `T - q^2`, scaled by `2^(1 - n)`. -/
structure RootDigits (T n ix q s : Nat) : Prop where
  double : s = 2 * q
  remainder : 2 * T = 2 * q ^ 2 + ix * 2 ^ n
  upper : T < (q + 2 ^ n) ^ 2

/-- The guess bit goes into the root when the remainder is large enough. -/
theorem RootDigits.take {T n ix q s : Nat} (h : RootDigits T (n + 1) ix q s) (ht : s + 2 ^ n ≤ ix) :
    RootDigits T n ((ix - (s + 2 ^ n)) + (ix - (s + 2 ^ n))) (q + 2 ^ n) (s + 2 ^ n + 2 ^ n) := by
  obtain ⟨rfl, hrem, hup⟩ := h
  obtain ⟨d, rfl⟩ := Nat.exists_eq_add_of_le ht
  rw [Nat.add_sub_cancel_left]
  refine ⟨by ring, ?_, ?_⟩
  · rw [hrem]
    ring
  · rwa [add_assoc, ← two_mul, ← pow_succ']

/-- The guess bit stays out of the root when the remainder is too small. -/
theorem RootDigits.skip {T n ix q s : Nat} (h : RootDigits T (n + 1) ix q s) (ht : ix < s + 2 ^ n) :
    RootDigits T n (ix + ix) q s := by
  obtain ⟨rfl, hrem, -⟩ := h
  refine ⟨rfl, ?_, ?_⟩
  · rw [hrem]
    ring
  · have hlt : ix * 2 ^ n < (2 * q + 2 ^ n) * 2 ^ n := Nat.mul_lt_mul_of_pos_right ht (by positivity)
    have hT : T < q ^ 2 + (2 * q + 2 ^ n) * 2 ^ n := by
      rw [pow_succ 2 n, ← mul_assoc] at hrem
      omega
    exact hT.trans_eq (by ring)

/-- The invariant holds at the loop's end too. -/
theorem RootDigits.loop {T n ix q s : Nat} (h : RootDigits T n ix q s) :
    RootDigits T 0 (sqrtLoop n ix q s).1 (sqrtLoop n ix q s).2 (2 * (sqrtLoop n ix q s).2) := by
  induction n generalizing ix q s with
  | zero => exact h.double ▸ h
  | succ n ih =>
    rw [sqrtLoop]
    simp only [Nat.one_shiftLeft]
    split
    · next ht => exact ih (h.take ht)
    · next ht => exact ih (h.skip (not_le.1 ht))

/-- The loop leaves the integer square root, and a remainder that is zero exactly when that is the root. -/
theorem sqrtLoop_eq_sqrt {ix : Nat} (h : ix < 2 ^ 26) :
    (sqrtLoop 25 ix 0 0).2 = Nat.sqrt (ix * 2 ^ 24) ∧
      ((sqrtLoop 25 ix 0 0).1 = 0 ↔ Nat.sqrt (ix * 2 ^ 24) ^ 2 = ix * 2 ^ 24) := by
  have hstart : RootDigits (ix * 2 ^ 24) 25 ix 0 0 := ⟨rfl, by ring, by omega⟩
  obtain ⟨-, hrem, hup⟩ := hstart.loop
  have hroot : (sqrtLoop 25 ix 0 0).2 = Nat.sqrt (ix * 2 ^ 24) := by
    rw [Nat.eq_sqrt']
    exact ⟨by omega, hup⟩
  rw [hroot] at hrem
  exact ⟨hroot, by omega⟩

/-! ## The result word (R162) -/

/-- The significand of `a` with an even exponent, shifted so that its integer square root has 25 bits. -/
def radicand (a : Word) : Nat := (norm a).1 * 2 ^ (25 + (((norm a).2 - 127) % 2).toNat)

/-- The exponent field of the root of `a`: the bias and half the exponent of `a`, floored. -/
def rootExponent (a : Word) : Nat := (127 + ((norm a).2 - 127) / 2).toNat

theorem even_radicand (a : Word) : Even (radicand a) := by
  rw [radicand, pow_add]
  exact ((even_two.pow_of_ne_zero (by decide)).mul_right _).mul_left _

/-- An odd root of an even number is never exact, so the root is never half-way between two results (R161). -/
theorem sqrt_sq_ne_of_odd {T : Nat} (hT : Even T) (h : Odd (Nat.sqrt T)) : Nat.sqrt T ^ 2 ≠ T := fun hsq =>
  Nat.not_even_iff_odd.2 h.pow (hsq.symm ▸ hT)

/-- R162 rounds the 25-bit root on its last bit. -/
theorem roundedRoot_of_even {T : Nat} (hT : Even T) {ix : Nat} (hix : ix = 0 ↔ Nat.sqrt T ^ 2 = T) :
    (if ix ≠ 0 then Nat.sqrt T + Nat.sqrt T % 2 else Nat.sqrt T) >>> 1 = (Nat.sqrt T + 1) / 2 := by
  rw [Nat.shiftRight_eq_div_pow, pow_one]
  split
  · omega
  · next h =>
    have heven : Even (Nat.sqrt T) :=
      Nat.not_odd_iff_even.1 fun hodd => sqrt_sq_ne_of_odd hT hodd (hix.1 (not_not.1 h))
    have := Nat.even_iff.1 heven
    omega

section
variable {a : Word} (hf : isFinite a = true) (hz : isZero a = false)
include hf hz

theorem rootExponent_bounds : 52 ≤ rootExponent a ∧ rootExponent a ≤ 190 := by
  obtain ⟨-, -, hl, hu, -⟩ := norm_spec a hf hz
  unfold rootExponent
  omega

theorem cast_rootExponent : (rootExponent a : Int) = 127 + ((norm a).2 - 127) / 2 := by
  obtain ⟨he, -⟩ := rootExponent_bounds hf hz
  unfold rootExponent at he ⊢
  omega

theorem radicand_bounds : 2 ^ 48 ≤ radicand a ∧ radicand a < 2 ^ 50 := by
  obtain ⟨hl, hu, -⟩ := norm_spec a hf hz
  unfold radicand
  rcases Int.emod_two_eq ((norm a).2 - 127) with h | h <;> rw [h] <;> norm_num <;> omega

theorem roundedRoot_bounds :
    2 ^ 23 ≤ (Nat.sqrt (radicand a) + 1) / 2 ∧ (Nat.sqrt (radicand a) + 1) / 2 ≤ 2 ^ 24 := by
  obtain ⟨hl, hu⟩ := radicand_bounds hf hz
  have hl' : 2 ^ 24 ≤ Nat.sqrt (radicand a) := Nat.le_sqrt.2 hl
  have hu' : Nat.sqrt (radicand a) < 2 ^ 25 := Nat.sqrt_lt.2 hu
  omega

theorem toNat_sqrtDatapath :
    (sqrtDatapath a).toNat = (rootExponent a - 1) * 2 ^ 23 + (Nat.sqrt (radicand a) + 1) / 2 := by
  obtain ⟨hm, hm'⟩ := roundedRoot_bounds hf hz
  obtain ⟨he, he'⟩ := rootExponent_bounds hf hz
  obtain ⟨-, hu⟩ := radicand_bounds hf hz
  unfold sqrtDatapath
  extract_lets ue ix d q
  have hT : (ix + ix) * 2 ^ 24 = radicand a := by
    rw [radicand]
    rcases Int.emod_two_eq ((norm a).2 - 127) with h | h <;> simp only [ix, ue, h] <;> norm_num <;> ring
  obtain ⟨hroot, hrem⟩ := sqrtLoop_eq_sqrt (ix := ix + ix) (by omega)
  rw [hT] at hroot hrem
  have hq : q >>> 1 = (Nat.sqrt (radicand a) + 1) / 2 := by
    simp only [q, d, hroot]
    exact roundedRoot_of_even (even_radicand a) hrem
  have hue : ue >>> 1 = (rootExponent a : Int) - 127 := by
    have hhalf : ue >>> 1 = ue / 2 := (Int.shiftRight_natCast_right ue 1).trans (Int.shiftRight_eq_div_pow ue 1)
    rw [hhalf, cast_rootExponent hf hz, add_sub_cancel_left]
  rw [hq, hue, BitVec.toNat_ofInt]
  omega

/-- The operand's magnitude is the square of half the radicand's root at the result's exponent. -/
theorem abs_val_eq_radicand : |val a| = (radicand a : Rat) / 4 * ((2 : Rat) ^ ((rootExponent a : Int) - 150)) ^ 2 := by
  have hexp : (norm a).2 - 150 = ((rootExponent a : Int) - 150) * 2 + (23 + (((norm a).2 - 127) % 2).toNat : Nat) := by
    rw [cast_rootExponent hf hz]
    omega
  rw [abs_val_eq_norm hf hz, hexp, zpow_add₀ two_ne_zero, zpow_mul, zpow_natCast, radicand, zpow_ofNat]
  push_cast
  ring

end

/-! ## The nearest binary32 value (R161) -/

/-- Half the root of an even number is less than a half from the integer that R162 rounds it to. -/
theorem abs_half_sqrt_sub_lt {T : Nat} (hT : Even T) : |√(T : ℝ) / 2 - ((Nat.sqrt T + 1) / 2 : Nat)| < 1 / 2 := by
  have hlo : (Nat.sqrt T : ℝ) ≤ √T := Real.nat_sqrt_le_real_sqrt
  have hhi : √(T : ℝ) < Nat.sqrt T + 1 := Real.real_sqrt_lt_nat_sqrt_succ
  rcases Nat.even_or_odd' (Nat.sqrt T) with ⟨k, hk | hk⟩
  · rw [hk, show (2 * k + 1) / 2 = k by omega, abs_lt]
    rw [hk] at hlo hhi
    push_cast at hlo hhi
    constructor <;> linarith
  · have hne : (Nat.sqrt T : ℝ) ≠ √T := fun h => sqrt_sq_ne_of_odd hT ⟨k, hk⟩ <| by
      exact_mod_cast (congrArg (· ^ 2) h).trans (Real.sq_sqrt (Nat.cast_nonneg T))
    have hlt := lt_of_le_of_ne hlo hne
    rw [hk, show (2 * k + 1 + 1) / 2 = k + 1 by omega, abs_lt]
    rw [hk] at hlt hhi
    push_cast at hlt hhi ⊢
    constructor <;> linarith

theorem two_pow_eq_unit_mul {n E k : Nat} (h : n + 150 = E + k) : (2 : Rat) ^ n = 2 ^ ((E : Int) - 150) * 2 ^ k := by
  rw [← zpow_natCast]
  exact (zpow_mul_pow (by omega)).symm

/-- In units of an exponent `E`, every value is an integer or below the significands of that exponent. -/
theorem exists_val_eq_mul_unit (y : Word) {E : Nat} (hE : 2 ≤ E) :
    ∃ Y : Rat, val y = Y * (2 : Rat) ^ ((E : Int) - 150) ∧ ((∃ k : Int, Y = k) ∨ Y < (2 ^ 23 : Int)) := by
  rcases le_or_gt E (expo y) with h | h
  · refine ⟨(signedMantissa y * 2 ^ (expo y - E) : Int), ?_, .inl ⟨_, rfl⟩⟩
    rw [val_eq_signedMantissa_mul_ulp, ulp_eq, ← zpow_mul_pow (n := expo y - E) (i := (E : Int) - 150) (by omega)]
    push_cast
    ring
  · have hu : (absUnits y : Rat) < 2 ^ (23 + (E - 1)) := by exact_mod_cast absUnits_lt (by omega) (by omega)
    rw [two_pow_eq_unit_mul (E := E) (k := 172) (by omega)] at hu
    have hunit : (0 : Rat) < 2 ^ ((E : Int) - 150) := by positivity
    refine ⟨val y / 2 ^ ((E : Int) - 150), (div_mul_cancel₀ _ hunit.ne').symm, .inr ?_⟩
    rw [div_lt_iff₀ hunit]
    refine (le_abs_self _).trans_lt ?_
    rw [abs_val, div_lt_iff₀ (by positivity)]
    push_cast
    linarith

/-- An integer less than a half from `X` is nearer to it than any other number that is an integer or below an integer
bound `b <= X`. -/
theorem abs_sub_lt_of_near {X Y : ℝ} {m b : Int} (hX : b ≤ X) (hm : |X - m| < 1 / 2) (hne : Y ≠ m)
    (hY : (∃ k : Int, Y = k) ∨ Y < b) : |X - m| < |X - Y| := by
  have hint (k : Int) (hk : k ≠ m) : |X - m| < |X - k| := by
    have h1 : (1 : ℝ) ≤ |(k : ℝ) - m| := by exact_mod_cast Int.one_le_abs (sub_ne_zero.2 hk)
    have h2 := abs_sub_le (k : ℝ) X m
    rw [abs_sub_comm (k : ℝ) X] at h2
    linarith
  rcases hY with ⟨k, rfl⟩ | hlt
  · exact hint k fun h => hne (by rw [h])
  · have hb : |X - b| < |X - Y| := by
      rw [abs_of_nonneg (by linarith), abs_of_pos (by linarith)]
      linarith
    rcases eq_or_ne b m with rfl | hbm
    · exact hb
    · exact (hint b hbm).trans hb

/-- A pattern whose significand is less than a half from `X` has a value nearer to what `X` stands for than any other. -/
theorem abs_sub_val_lt {v y : Word} {E m : Nat} {X : ℝ} (hE : 2 ≤ E) (hv : val v = m * (2 : Rat) ^ ((E : Int) - 150))
    (hX : 2 ^ 23 ≤ X) (hm : |X - m| < 1 / 2) (hne : val y ≠ val v) :
    |X * (2 : ℝ) ^ ((E : Int) - 150) - (val v : ℝ)| < |X * (2 : ℝ) ^ ((E : Int) - 150) - (val y : ℝ)| := by
  obtain ⟨Y, hy, hY⟩ := exists_val_eq_mul_unit y hE
  have hYm : Y ≠ m := fun h => hne (by rw [hy, hv, h])
  have hlt : |X - (m : Int)| < |X - (Y : ℝ)| := by
    refine abs_sub_lt_of_near (b := 2 ^ 23) (by exact_mod_cast hX) (by exact_mod_cast hm) (by exact_mod_cast hYm) ?_
    exact_mod_cast hY
  rw [hv, hy]
  push_cast at hlt ⊢
  rw [← sub_mul, ← sub_mul, abs_mul, abs_mul]
  exact mul_lt_mul_of_pos_right hlt (by positivity)

theorem val_sqrtDatapath {a : Word} (hf : isFinite a = true) (hz : isZero a = false) :
    isFinite (sqrtDatapath a) = true ∧
      val (sqrtDatapath a) = ((Nat.sqrt (radicand a) + 1) / 2 : Nat) * (2 : Rat) ^ ((rootExponent a : Int) - 150) := by
  obtain ⟨he, he'⟩ := rootExponent_bounds hf hz
  obtain ⟨hm, hm'⟩ := roundedRoot_bounds hf hz
  obtain ⟨hfin, hs, hA⟩ := fields_of_toNat (s := false) (E := rootExponent a) (by omega) (by omega) hm hm'
    ((toNat_sqrtDatapath hf hz).trans (by simp))
  refine ⟨hfin, ?_⟩
  rw [val_of_sgn_false hs, abs_val, hA, div_eq_iff (by positivity), Nat.cast_mul, Nat.cast_pow, Nat.cast_ofNat,
    two_pow_eq_unit_mul (E := rootExponent a) (k := 149) (by omega), mul_assoc]

theorem sqrt_val_eq {a : Word} (hf : isFinite a = true) (hz : isZero a = false) (hs : sgn a = false) :
    √(val a : ℝ) = √(radicand a : ℝ) / 2 * (2 : ℝ) ^ ((rootExponent a : Int) - 150) := by
  have h : (val a : ℝ) = (√(radicand a : ℝ) / 2 * (2 : ℝ) ^ ((rootExponent a : Int) - 150)) ^ 2 := by
    rw [val_of_sgn_false hs, abs_val_eq_radicand hf hz, mul_pow, div_pow, Real.sq_sqrt (Nat.cast_nonneg _)]
    push_cast
    norm_num
  rw [h, Real.sqrt_sq (by positivity)]

/-- A finite pattern with a nonzero value is determined by it. -/
theorem eq_of_val_eq {v w : Word} (hv : isFinite v = true) (hw : isFinite w = true) (h : val v = val w)
    (h0 : val v ≠ 0) : v = w := by
  have hs : sgn v = sgn w := by
    rw [sgn_eq_decide_of_val_ne_zero h0, sgn_eq_decide_of_val_ne_zero (h ▸ h0), h]
  exact eq_of_abs_val hv hw hs (congrArg abs h)

/-- Settles O43: in units of the result's exponent the root lies less than a half from the result's significand, and every
other value is an integer there or below `2^23`. -/
theorem sqrtIsCorrectlyRounded : Obligations.SqrtIsCorrectlyRounded := fun a hf hz hs => by
  obtain ⟨hfin, hval⟩ := val_sqrtDatapath hf hz
  obtain ⟨hroot, -⟩ := roundedRoot_bounds hf hz
  obtain ⟨hexp, -⟩ := rootExponent_bounds hf hz
  refine ⟨sqrtDatapath a, gives_sqrt_iff.2 (fpSqrt_of_positive hf hz hs).symm, hfin, fun y hy hne => ?_⟩
  have hv0 : val (sqrtDatapath a) ≠ 0 := by
    rw [hval]
    positivity
  have hX : (2 ^ 23 : ℝ) ≤ √(radicand a : ℝ) / 2 := by
    have : (2 ^ 24 : ℝ) ≤ √(radicand a : ℝ) := Real.le_sqrt_of_sq_le (by exact_mod_cast (radicand_bounds hf hz).1)
    linarith
  rw [sqrt_val_eq hf hz hs]
  exact abs_sub_val_lt (by omega) hval hX (abs_half_sqrt_sub_lt (even_radicand a))
    fun h => hne (eq_of_val_eq hy hfin h (h ▸ hv0))

end Sys2Proof.Machine

/-! PROOFS of the exponential and logarithm family (45_exp_log.md): the lines of EXP and LOG before their cores (R170,
R180), what the contracts promise of a logarithm (R183), and the quotients of logarithms that these decide (R185 to
R187). -/

namespace Sys2Proof.Machine

/-! ## The lines of EXP (R170) -/

theorem gives_exp_iff {a v : Word} : Gives (.exp a) v ↔ v = fpExp Config.cfg a := gives_iff _ _

theorem fpExp_of_isNan (c : Cfg) {a : Word} (h : isNan a = true) : fpExp c a = Pat.cnan := if_pos h

theorem fpExp_of_isZero (c : Cfg) {a : Word} (h : isZero a = true) : fpExp c a = Pat.one := by
  have he : expo a ≠ 255 := (isFinite_iff a).1 (isFinite_of_isZero h)
  have hp : a ≠ Pat.pinf := ne_of_expo_ne he
  have hm : a ≠ Pat.ninf := ne_of_expo_ne he
  simp [fpExp, isNan_of_isZero h, hp, hm, h]

/-- At or above a threshold, which exceeds 1, there is no zero (R173). -/
theorem isZero_of_one_lt {t a : Word} (ht : Pat.one < t) (h : t ≤ fabs a) : isZero a = false := by
  rw [Bool.eq_false_iff, ne_eq, ← fabs_eq_zero_iff]
  intro hz
  rw [hz] at h
  exact absurd (Nat.lt_of_lt_of_le ht h) (by decide)

section
variable {c : Cfg} (hc : Cfg.Legal c)
include hc

theorem fpExp_of_overflow {a : Word} (hn : isNan a = false) (hs : sgn a = false) (h : c.expOvfThr ≤ a) :
    fpExp c a = Pat.pinf := by
  have hz : isZero a = false := isZero_of_one_lt hc.ovf.1 (by rwa [fabs_of_nonneg hs])
  simp [fpExp, hn, ne_ninf_of_sgn hs, hz, hs, h]

theorem fpExp_of_underflow {a : Word} (hn : isNan a = false) (hs : sgn a = true) (h : c.expUdfThr ≤ fabs a) :
    fpExp c a = Pat.zero := by
  have hz : isZero a = false := isZero_of_one_lt hc.udf.1 h
  have hp : a ≠ Pat.pinf := by
    rintro rfl
    exact absurd hs (by decide)
  simp [fpExp, hn, hp, hz, hs, h]

/-- Every line of EXP but the first gives a word with sign 0 that is no NaN (R171). -/
theorem fpExp_nonneg {a : Word} (hn : isNan a = false) : isNan (fpExp c a) = false ∧ sgn (fpExp c a) = false := by
  unfold fpExp
  split_ifs with hn' hp hm hz ho hu
  · simp [hn] at hn'
  · decide
  · decide
  · decide
  · decide
  · decide
  · have ht : if sgn a then fabs a < c.expUdfThr else a < c.expOvfThr := by
      cases hs : sgn a
      · simpa [hs, BitVec.not_le] using ho
      · simpa [hs, BitVec.not_le] using hu
    exact hc.expCore a ⟨isFinite_of_ne_inf hn hp hm, by simpa using hz, ht⟩

end

/-- Settles O44: each line's operand, and the sign of a result by cases on the line that gives it. -/
theorem expDispatch : Obligations.ExpDispatch := fun a => by
  have hc := configurationMeetsItsContracts
  simp only [gives_exp_iff]
  refine ⟨fun hn => ?_, rfl, rfl, fun hz => ?_, fun hn hs h => ?_, fun hn hs h => ?_, fun hd => ?_,
    fun hn => ⟨_, rfl, fpExp_nonneg hc hn⟩⟩
  · exact (fpExp_of_isNan _ hn).symm
  · exact (fpExp_of_isZero _ hz).symm
  · exact (fpExp_of_overflow hc hn hs h).symm
  · exact (fpExp_of_underflow hc hn hs h).symm
  · exact (fpExp_of_expDomain _ hd).symm

/-! ## The lines of LOG (R180) -/

theorem gives_log_iff {a v : Word} : Gives (.log a) v ↔ v = fpLog Config.cfg a := gives_iff _ _

theorem fpLog_of_isNan (c : Cfg) {a : Word} (h : isNan a = true) : fpLog c a = Pat.cnan := if_pos h

theorem fpLog_of_isZero (c : Cfg) {a : Word} (h : isZero a = true) : fpLog c a = Pat.ninf := by
  simp [fpLog, isNan_of_isZero h, h]

theorem fpLog_of_negative (c : Cfg) {a : Word} (hz : isZero a = false) (hs : sgn a = true) :
    fpLog c a = Pat.cnan := by
  simp [fpLog, hz, hs]

/-- Settles O47: each line's operand, and the contract of the core on its domain. -/
theorem logDispatch : Obligations.LogDispatch := fun a => by
  have hc := configurationMeetsItsContracts
  simp only [gives_log_iff]
  refine ⟨fun hn => ?_, fun hz => ?_, fun hz hs => ?_, rfl, rfl, fun hd => ⟨?_, hc.logFinite a hd,
    hc.logNegative a hd, hc.logPositive a hd⟩⟩
  · exact (fpLog_of_isNan _ hn).symm
  · exact (fpLog_of_isZero _ hz).symm
  · exact (fpLog_of_negative _ hz hs).symm
  · exact (fpLog_of_logDomain _ hd).symm

/-! ## Quotients of logarithms (R185) -/

theorem gives_logb_iff {a b v : Word} : Gives (.logb a b) v ↔ v = fpLogb Config.cfg a b := gives_iff _ _

/-- LOGB of two operands whose logarithms and their quotient are known. -/
theorem gives_logb_of_fpLog {a b x y v : Word} (ha : fpLog Config.cfg a = x) (hb : fpLog Config.cfg b = y)
    (hv : fpDiv x y = v) : Gives (.logb a b) v := by
  rw [gives_logb_iff, fpLogb, ha, hb, hv]

/-- An invalid logarithm makes an invalid quotient. -/
theorem gives_logb_of_invalid {a b : Word} (h : fpLog Config.cfg a = Pat.cnan ∨ fpLog Config.cfg b = Pat.cnan) :
    Gives (.logb a b) Pat.cnan := by
  refine gives_logb_of_fpLog rfl rfl (fpDiv_of_isNan (h.imp (fun h => ?_) fun h => ?_)) <;>
    · rw [h]
      rfl

/-- What LOG gives inside the domain of its core is finite (R183 item 1). -/
theorem fpLog_of_gives_log {a l : Word} (hd : logDomain a) (hl : Gives (.log a) l) :
    fpLog Config.cfg a = l ∧ isFinite l = true := by
  obtain rfl := gives_log_iff.1 hl
  refine ⟨rfl, ?_⟩
  rw [fpLog_of_logDomain _ hd]
  exact configurationMeetsItsContracts.logFinite a hd

theorem pattern_inf (s : Bool) : pattern s 0xFF 0 = if s then Pat.ninf else Pat.pinf := by cases s <;> rfl

/-- Division by `LOG(1)` (R130). -/
theorem fpDiv_zero {l : Word} (hf : isFinite l = true) (hz : isZero l = false) :
    fpDiv l Pat.zero = if sgn l then Pat.ninf else Pat.pinf := by
  have h0 : isZero Pat.zero = true := rfl
  rw [fpDiv_of_isFinite_of_zero hf rfl (.inr h0), if_pos h0, hz, if_neg Bool.false_ne_true, pattern_inf, xorSign,
    show sgn Pat.zero = false from rfl, Bool.xor_false]

/-- Division of `LOG(1)` (R130). -/
theorem zero_fpDiv {l : Word} (hf : isFinite l = true) (hz : isZero l = false) :
    fpDiv Pat.zero l = pattern (sgn l) 0 0 := by
  rw [fpDiv_of_isFinite_of_zero rfl hf (.inl rfl), hz, if_neg Bool.false_ne_true, xorSign,
    show sgn Pat.zero = false from rfl, Bool.false_xor]

/-- An infinite logarithm by a finite one is an infinity, with the product of the signs. -/
theorem gives_logb_of_infinite {a b x : Word} {s : Bool} (ha : fpLog Config.cfg a = x) (hx : isInf x = true)
    (hb : logDomain b) (hs : sgn (Config.cfg.logCore b) = s) :
    Gives (.logb a b) (if sgn x ^^ s then Pat.ninf else Pat.pinf) := by
  refine gives_logb_of_fpLog ha (fpLog_of_logDomain _ hb) ?_
  rw [fpDiv_of_isInf_of_isFinite hx (configurationMeetsItsContracts.logFinite b hb), pattern_inf, xorSign, hs]

/-- A finite logarithm by an infinite one is a zero, with the product of the signs. -/
theorem gives_logb_of_finite {a b l y : Word} {s : Bool} (hd : logDomain a) (hl : Gives (.log a) l)
    (hb : fpLog Config.cfg b = y) (hy : isInf y = true) (hs : (sgn l ^^ sgn y) = s) :
    Gives (.logb a b) (pattern s 0 0) := by
  obtain ⟨ha, hf⟩ := fpLog_of_gives_log hd hl
  refine gives_logb_of_fpLog ha hb ?_
  rw [fpDiv_of_isFinite_of_isInf hf hy, xorSign, hs]

/-- Settles O49: the logarithms of R180 and R183, divided by the lines of R130. -/
theorem logbSpecialPairs : Obligations.LogbSpecialPairs := fun a b => by
  have hc := configurationMeetsItsContracts
  have hzero {r : Word} : isZero r = true → fpLog Config.cfg r = Pat.ninf := fpLog_of_isZero _
  have hinf : fpLog Config.cfg Pat.pinf = Pat.pinf := rfl
  have hone : fpLog Config.cfg Pat.one = Pat.zero := rfl
  refine ⟨fun h => ?_, fun hz hs => ?_, fun hz hs => ?_, fun ha hb => ?_, fun ha => ⟨?_, ?_⟩, ?_, ?_,
    fun l hd hl hz => ?_, fun l hd hl hz => ?_, fun ha hd h => ?_, fun ha hd h => ?_, fun hd h => ?_, fun hd h => ?_,
    fun l hd hl hb => ?_, fun l hd hl => ?_⟩
  · exact gives_logb_of_invalid (h.imp (fpLog_of_isNan _) (fpLog_of_isNan _))
  · exact gives_logb_of_invalid (.inl (fpLog_of_negative _ hz hs))
  · exact gives_logb_of_invalid (.inr (fpLog_of_negative _ hz hs))
  · exact gives_logb_of_fpLog (hzero ha) (hzero hb) rfl
  · exact gives_logb_of_fpLog (hzero ha) hinf rfl
  · exact gives_logb_of_fpLog (hzero ha) hone rfl
  · exact gives_logb_of_fpLog hinf hinf rfl
  · exact gives_logb_of_fpLog hone hone rfl
  · obtain ⟨ha, hf⟩ := fpLog_of_gives_log hd hl
    exact gives_logb_of_fpLog ha hone (fpDiv_zero hf hz)
  · obtain ⟨hb, hf⟩ := fpLog_of_gives_log hd hl
    exact gives_logb_of_fpLog hone hb (zero_fpDiv hf hz)
  · exact gives_logb_of_infinite (hzero ha) rfl hd (hc.logPositive b hd h).1
  · exact gives_logb_of_infinite (hzero ha) rfl hd (hc.logNegative b hd h).1
  · exact gives_logb_of_infinite hinf rfl hd (hc.logPositive b hd h).1
  · exact gives_logb_of_infinite hinf rfl hd (hc.logNegative b hd h).1
  · exact gives_logb_of_finite hd hl (hzero hb) rfl (Bool.xor_true _)
  · exact gives_logb_of_finite hd hl hinf rfl (Bool.xor_false _)

/-! ## The values named for the open operations -/

/-- The tolerance of R175 item 3 and R183 items 4 and 5, counted in units of `2^-149`, is one of the value. -/
theorem near_iff (r : Word) (k : Nat) : near r k = true ↔ isFinite r = true ∧ |val r - k| ≤ 1 / 1000 := by
  have hpos : (0 : Rat) < 2 ^ 149 := by positivity
  have hval : val r - k = ((units r - (k <<< 149 : Nat) : Int) : Rat) / 2 ^ 149 := by
    rw [val, Nat.shiftLeft_eq, Int.cast_sub, Int.cast_natCast, Nat.cast_mul, Nat.cast_pow, Nat.cast_ofNat, sub_div,
      mul_div_cancel_right₀ _ hpos.ne']
  rw [near, Bool.and_eq_true, decide_eq_true_iff, Int.natAbs_mul, Int.natAbs_natCast, hval, abs_div, abs_of_pos hpos,
    div_le_div_iff₀ hpos (by norm_num), ← Int.cast_abs, ← Nat.cast_natAbs, mul_comm]
  norm_cast

/-- A logarithm to its own base is 1 where the contract shows that the logarithm is not zero (R185, R130). -/
theorem gives_logb_self {a : Word} (hd : logDomain a) (h : Pat.two ≤ a) : Gives (.logb a a) Pat.one :=
  have hlog := fpLog_of_logDomain Config.cfg hd
  gives_logb_of_fpLog hlog hlog (fpDiv_self (configurationMeetsItsContracts.logFinite a hd)
    (configurationMeetsItsContracts.logPositive a hd h).2)

theorem logDomain_ten : logDomain Pat.ten := ⟨by decide, by decide, by decide, by decide⟩

theorem gives_pow_iff {x y v : Word} : Gives (.pow x y) v ↔ v = fpPow Config.cfg x y := gives_iff _ _

/-- On the domain of its core POW is the core (R195 line 10). -/
theorem fpPow_of_powDomain (c : Cfg) {x y : Word} (h : powDomain x y) : fpPow c x y = c.powCore x y := by
  obtain ⟨⟨hfx, hzx, hsx, h1⟩, hfy, hzy⟩ := h
  have hx0 : x ≠ Pat.zero := by
    rintro rfl
    exact absurd hzx (by decide)
  have hxi : x ≠ Pat.pinf := ne_of_expo_ne ((isFinite_iff x).1 hfx)
  have hy0 : fabs y ≠ Pat.zero := by simp [fabs_eq_zero_iff, hzy]
  simp [fpPow, powFiniteExponent, fabs_of_nonneg hsx, isNan_of_isFinite hfx, isNan_of_isFinite hfy,
    isInf_of_isFinite hfy, hsx, h1, hx0, hxi, hy0]

theorem powDomain_two_three : powDomain Pat.two Pat.three := ⟨logDomain_two, by decide, by decide⟩

/-- Settles O48: the contracts that name these values (R175, R183, R208). -/
theorem workedValuesOfTheOpenOperations : Obligations.WorkedValuesOfTheOpenOperations := by
  have hc := configurationMeetsItsContracts
  refine ⟨⟨_, _, gives_exp_iff.2 rfl, gives_log _, ?_⟩, ⟨_, gives_log2 _, ?_⟩, ?_, ?_, ?_⟩
  · exact_mod_cast (near_iff _ 1).1 hc.logExpOne
  · exact_mod_cast (near_iff _ 3).1 hc.logEight
  · exact gives_logb_self logDomain_two (by decide)
  · exact gives_logb_self logDomain_ten (by decide)
  · rw [gives_pow_iff, fpPow_of_powDomain _ powDomain_two_three, hc.powTwoThree]

end Sys2Proof.Machine

/-! PROOFS of the power family (46_pow.md): the class of an exponent against its value (R196), and the lines of POW (R195)
behind the table of special pairs (R197). -/

namespace Sys2Proof.Machine

/-! ## Parity of a value (R196) -/

/-- What a class says of a value. -/
def YClass.Describes : YClass → Rat → Prop
  | .nonint, q => ¬ ∃ n : Int, q = (n : Rat)
  | .odd, q => ∃ n : Int, q = ((2 * n + 1 : Int) : Rat)
  | .even, q => ∃ n : Int, q = ((2 * n : Int) : Rat)

/-- The three descriptions exclude each other. -/
theorem YClass.Describes.unique {c d : YClass} {q : Rat} (hc : c.Describes q) (hd : d.Describes q) : c = d := by
  have hoe : YClass.odd.Describes q → ¬ YClass.even.Describes q := by
    rintro ⟨m, rfl⟩ ⟨n, h⟩
    have : 2 * m + 1 = 2 * n := by exact_mod_cast h
    omega
  have ho : YClass.odd.Describes q → ¬ YClass.nonint.Describes q := fun ⟨m, h⟩ hn => hn ⟨_, h⟩
  have he : YClass.even.Describes q → ¬ YClass.nonint.Describes q := fun ⟨m, h⟩ hn => hn ⟨_, h⟩
  cases c <;> cases d
  case nonint.nonint | odd.odd | even.even => rfl
  case nonint.odd => exact absurd hc (ho hd)
  case nonint.even => exact absurd hc (he hd)
  case odd.nonint => exact absurd hd (ho hc)
  case odd.even => exact absurd hd (hoe hc)
  case even.nonint => exact absurd hd (he hc)
  case even.odd => exact absurd hc (hoe hd)

/-- A value and its negative have one class. -/
theorem YClass.Describes.neg {c : YClass} {q : Rat} (h : c.Describes q) : c.Describes (-q) := by
  cases c with
  | nonint =>
    rintro ⟨n, hn⟩
    exact h ⟨-n, by rw [Int.cast_neg, ← hn, neg_neg]⟩
  | odd =>
    obtain ⟨n, rfl⟩ := h
    exact ⟨-n - 1, by push_cast; ring⟩
  | even =>
    obtain ⟨n, rfl⟩ := h
    exact ⟨-n, by push_cast; ring⟩

theorem YClass.Describes.of_abs {c : YClass} {q : Rat} (h : c.Describes |q|) : c.Describes q := by
  rcases abs_choice q with hq | hq <;> rw [hq] at h
  · exact h
  · simpa using h.neg

theorem YClass.describes_natCast (n : Nat) : YClass.Describes (if n % 2 = 1 then .odd else .even) (n : Rat) := by
  split
  · exact ⟨(n / 2 : Nat), by norm_cast; omega⟩
  · exact ⟨(n / 2 : Nat), by norm_cast; omega⟩

theorem YClass.describes_nonint_of_between {n : Nat} {q : Rat} (hl : n < q) (hu : q < n + 1) :
    YClass.nonint.Describes q := by
  rintro ⟨m, rfl⟩
  have : (n : Int) < m := by exact_mod_cast hl
  have : m < (n : Int) + 1 := by exact_mod_cast hu
  omega

/-! ## The lines of the classification (R196) -/

theorem yclass_of_large {y : Word} (h : 151 ≤ expo y) : yclass y = .even := by
  have hle : 0x4B800000 ≤ (fabs y).toNat := by
    rw [fabs_toNat]
    omega
  exact if_pos hle

theorem yclass_of_small {y : Word} (h : expo y < 127) : yclass y = .nonint := by
  have hm := mant_lt y
  have hlt : (fabs y).toNat < 0x3F800000 := by
    rw [fabs_toNat]
    omega
  exact (if_neg (by omega)).trans (if_pos hlt)

/-- Between 1 and `2^24`, with `k` bits of the pattern below weight 1: those bits tell an integer, the bit above them its
parity. -/
theorem yclass_of_fraction {y : Word} {k : Nat} (hk : k ≤ 23) (he : expo y + k = 150) :
    yclass y =
      if (fabs y).toNat % 2 ^ k = 0 then if (fabs y).toNat / 2 ^ k % 2 = 1 then .odd else .even else .nonint := by
  have hm := mant_lt y
  have hN := fabs_toNat y
  have hshift : 23 - ((fabs y).toNat / 2 ^ 23 - 127) = k := by omega
  have hint : (fabs y).toNat / 2 ^ k * 2 ^ k ≠ (fabs y).toNat ↔ ¬ (fabs y).toNat % 2 ^ k = 0 := by
    rw [ne_eq, ← Nat.dvd_iff_mod_eq_zero, Nat.dvd_iff_div_mul_eq]
  rw [yclass]
  dsimp only
  rw [if_neg (by omega), if_neg (by omega)]
  simp only [Nat.shiftRight_eq_div_pow, Nat.shiftLeft_eq, hshift, hint, ite_not]

/-! ## The class of an exponent describes its value -/

@[simp] theorem absUnits_fabs (r : Word) : absUnits (fabs r) = absUnits r := by simp [absUnits, magnitude]

theorem abs_val_fabs (r : Word) : |val (fabs r)| = |val r| := by rw [abs_val, abs_val, absUnits_fabs]

/-- From `2^24` on a magnitude is a multiple of 2. -/
theorem abs_val_of_large {y : Word} (h : 151 ≤ expo y) :
    |val y| = (2 * ((mant y + 2 ^ 23) * 2 ^ (expo y - 151)) : Nat) := by
  rw [abs_val, absUnits_of_normal (by omega), div_eq_iff (by positivity),
    show expo y - 1 = expo y - 151 + 150 by omega, pow_add]
  push_cast
  ring

theorem describes_abs_val_of_large {y : Word} (h : 151 ≤ expo y) : YClass.even.Describes |val y| :=
  ⟨((mant y + 2 ^ 23) * 2 ^ (expo y - 151) : Nat), by rw [abs_val_of_large h]; norm_cast⟩

/-- The exponent field, less the implicit leading bit, does not reach the units bit of the integer: only for the field 127
does its lowest bit stand there, and the leading bit makes it 126 (R196). -/
theorem two_dvd_of_two_pow_mul_eq {E k B : Nat} (hk : k ≤ 23) (hE : E + k = 150) (hB : 2 ^ k * B = (E - 1) * 2 ^ 23) :
    2 ∣ B := by
  refine Nat.dvd_of_mul_dvd_mul_left (Nat.two_pow_pos k) ?_
  rw [hB, ← pow_succ]
  rcases hk.lt_or_eq with hlt | rfl
  · exact Nat.dvd_mul_left_of_dvd (Nat.pow_dvd_pow 2 hlt) _
  · rw [show E - 1 = 63 * 2 by omega, Nat.mul_assoc]
    exact Nat.dvd_mul_left _ _

theorem describes_abs_val_of_fraction {y : Word} {k : Nat} (hk : k ≤ 23) (he : expo y + k = 150) :
    (yclass y).Describes |val y| := by
  obtain ⟨A, B, hN, hB, -, -, hval⟩ := exists_fixedPoint (a := fabs y) hk (by rwa [expo_fabs])
  rw [sgn_fabs, if_neg Bool.false_ne_true, Nat.zero_add, expo_fabs] at hB
  have hB2 : B % 2 = 0 := Nat.mod_eq_zero_of_dvd (two_dvd_of_two_pow_mul_eq hk he hB)
  have hmod : (fabs y).toNat % 2 ^ k = A % 2 ^ k := by rw [hN, Nat.mul_add_mod]
  have hpar : (fabs y).toNat / 2 ^ k % 2 = A / 2 ^ k % 2 := by
    rw [hN, Nat.mul_add_div (by positivity), Nat.add_mod, hB2, Nat.zero_add, Nat.mod_mod]
  rw [yclass_of_fraction hk he, hmod, hpar, ← abs_val_fabs, hval, cast_div_two_pow]
  split
  · next h0 =>
    rw [h0, Nat.cast_zero, zero_div, add_zero]
    exact YClass.describes_natCast _
  · next h0 =>
    have hr : ((A % 2 ^ k : Nat) : Rat) < 2 ^ k := by exact_mod_cast Nat.mod_lt A (Nat.two_pow_pos k)
    have hpos : 0 < ((A % 2 ^ k : Nat) : Rat) / 2 ^ k := by positivity
    have hlt : ((A % 2 ^ k : Nat) : Rat) / 2 ^ k < 1 := (div_lt_one (by positivity)).2 hr
    exact YClass.describes_nonint_of_between (lt_add_of_pos_right _ hpos) (add_lt_add_right hlt _)

/-- The class is that of the magnitude, by where the exponent field puts the units bit (R196). -/
theorem describes_yclass {y : Word} (hf : isFinite y = true) (hz : isZero y = false) :
    (yclass y).Describes (val y) := by
  apply YClass.Describes.of_abs
  by_cases hlt : expo y < 127
  · rw [yclass_of_small hlt]
    exact YClass.describes_nonint_of_between (n := 0) (by simpa using abs_val_pos hf hz)
      (by simpa using abs_val_lt_one hlt)
  · by_cases hle : 151 ≤ expo y
    · rw [yclass_of_large hle]
      exact describes_abs_val_of_large hle
    · exact describes_abs_val_of_fraction (k := 150 - expo y) (by omega) (by omega)

theorem yclass_eq_iff {y : Word} (hf : isFinite y = true) (hz : isZero y = false) (c : YClass) :
    yclass y = c ↔ c.Describes (val y) :=
  ⟨fun h => h ▸ describes_yclass hf hz, (describes_yclass hf hz).unique⟩

/-- Settles O51: a value has one class, and `yclass` gives it. -/
theorem yclassIsParityOfTheValue : Obligations.YclassIsParityOfTheValue := fun _ hf hz =>
  ⟨yclass_eq_iff hf hz .odd, yclass_eq_iff hf hz .even, yclass_eq_iff hf hz .nonint⟩

/-! ## The lines of POW (R195) -/

theorem fabs_eq_pinf_iff (r : Word) : fabs r = Pat.pinf ↔ isInf r = true := by
  rw [isInf_iff, ← expo_fabs, ← mant_fabs]
  constructor
  · intro h
    rw [h]
    decide
  · rintro ⟨he, hm⟩
    exact eq_of_fields (sgn_fabs r) he hm

/-- No NaN has a magnitude pattern below that of 1. -/
theorem isNan_of_fabs_lt_one {x : Word} (h : fabs x < Pat.one) : isNan x = false := by
  have hlt : (fabs x).toNat < 0x3F800000 := h
  rw [fabs_toNat] at hlt
  exact isNan_of_expo_lt (by omega)

theorem ne_one_of_fabs_ne {x : Word} (h : fabs x ≠ Pat.one) : x ≠ Pat.one := by
  rintro rfl
  exact h rfl

/-- A test that tells two patterns apart. -/
theorem ne_of_test {p : Word → Bool} {x z : Word} (hx : p x = true) (hz : p z = false) : x ≠ z := by
  rintro rfl
  exact absurd hx (Bool.eq_false_iff.1 hz)

section
variable (c : Cfg) {x y : Word}

theorem fpPow_of_isZero (h : isZero y = true) : fpPow c x y = Pat.one := if_pos ((fabs_eq_zero_iff y).2 h)

theorem one_fpPow (y : Word) : fpPow c Pat.one y = Pat.one := by simp [fpPow]

theorem fpPow_of_isNan (hy : isZero y = false) (hx : x ≠ Pat.one) (h : isNan x = true ∨ isNan y = true) :
    fpPow c x y = Pat.cnan := by
  simp [fpPow, fabs_eq_zero_iff, hy, hx, h]

theorem fpPow_of_isInf (hn : isNan x = false) (hx : x ≠ Pat.one) (hy : isInf y = true) :
    fpPow c x y = if fabs x = Pat.one then Pat.one
      else if Pat.one < fabs x then (if sgn y then Pat.zero else Pat.pinf)
      else (if sgn y then Pat.pinf else Pat.zero) := by
  have hz : isZero y = false := isZero_of_expo_ne (by rw [((isInf_iff y).1 hy).1]; decide)
  simp [fpPow, fabs_eq_zero_iff, hz, hx, hn, isNan_of_isInf hy, hy]

/-- The infinite exponents with a base above 1 (R195 line 4b). -/
theorem fpPow_of_isInf_of_one_lt (hn : isNan x = false) (h : Pat.one < fabs x) (hy : isInf y = true) :
    fpPow c x y = if sgn y then Pat.zero else Pat.pinf := by
  have h1 : fabs x ≠ Pat.one := (BitVec.ne_of_lt h).symm
  rw [fpPow_of_isInf c hn (ne_one_of_fabs_ne h1) hy, if_neg h1, if_pos h]

/-- The infinite exponents with a base below 1 (R195 line 4c). -/
theorem fpPow_of_isInf_of_lt_one (h : fabs x < Pat.one) (hy : isInf y = true) :
    fpPow c x y = if sgn y then Pat.pinf else Pat.zero := by
  have h1 : fabs x ≠ Pat.one := BitVec.ne_of_lt h
  rw [fpPow_of_isInf c (isNan_of_fabs_lt_one h) (ne_one_of_fabs_ne h1) hy, if_neg h1, if_neg (BitVec.lt_asymm h)]

theorem fpPow_of_finiteExponent (hn : isNan x = false) (hx : x ≠ Pat.one) (hf : isFinite y = true)
    (hz : isZero y = false) : fpPow c x y = powFiniteExponent c x y := by
  simp [fpPow, fabs_eq_zero_iff, hz, hx, hn, isNan_of_isFinite hf, isInf_of_isFinite hf]

theorem powFiniteExponent_of_isInf (h : isInf x = true) :
    powFiniteExponent c x y = pattern (sgn x && yclass y == .odd) (if sgn y then 0 else 0xFF) 0 := by
  have hax := (fabs_eq_pinf_iff x).2 h
  cases hs : sgn y <;> simp [powFiniteExponent, hax, hs]

theorem powFiniteExponent_of_isZero (h : isZero x = true) :
    powFiniteExponent c x y = pattern (sgn x && yclass y == .odd) (if sgn y then 0xFF else 0) 0 := by
  have hax := (fabs_eq_zero_iff x).2 h
  have h0 : Pat.zero ≠ Pat.pinf := by decide
  cases hs : sgn y <;> simp [powFiniteExponent, hax, h0, hs]

theorem powFiniteExponent_of_nonint (hf : isFinite x = true) (hz : isZero x = false) (hs : sgn x = true)
    (h : yclass y = .nonint) : powFiniteExponent c x y = Pat.cnan := by
  simp [powFiniteExponent, fabs_eq_pinf_iff, fabs_eq_zero_iff, isInf_of_isFinite hf, hz, hs, h]

theorem powFiniteExponent_minusOne (h : yclass y ≠ .nonint) :
    powFiniteExponent c Pat.minusOne y = pattern (yclass y == .odd) 0x7F 0 := by
  have hax : fabs Pat.minusOne = Pat.one := by decide
  have hs : sgn Pat.minusOne = true := by decide
  have h1 : Pat.one ≠ Pat.pinf ∧ Pat.one ≠ Pat.zero := by decide
  simp [powFiniteExponent, hax, hs, h1, h]

/-- A negative base with an integer exponent is the core on the magnitude, under the sign of an odd power (R195 lines 6 and
10). -/
theorem powFiniteExponent_of_logDomain (hd : logDomain (fabs x)) (hs : sgn x = true) (h : yclass y ≠ .nonint) :
    powFiniteExponent c x y = (if yclass y = .odd then 0x80000000#32 else 0) ||| c.powCore (fabs x) y := by
  obtain ⟨hf, hz, -, h1⟩ := hd
  rw [isFinite_fabs] at hf
  rw [isZero_fabs] at hz
  simp [powFiniteExponent, fabs_eq_pinf_iff, fabs_eq_zero_iff, isInf_of_isFinite hf, hz, hs, h, h1]

end

/-- Settles O50: each row of R197 is the line of R195 that its operands reach. -/
theorem powSpecialPairs : Obligations.PowSpecialPairs := fun x y => by
  simp only [gives_pow_iff, eq_comm (b := fpPow _ _ _)]
  refine ⟨fun hzy => ?_, ?_, fun hnx hzy => ?_, fun hx hny => ?_, fun hiy => ?_, fun hnx h => ⟨?_, ?_⟩,
    fun h => ⟨?_, ?_⟩, fun hfy hzy => ?_⟩
  · exact fpPow_of_isZero _ hzy
  · exact one_fpPow _ y
  · exact fpPow_of_isNan _ hzy (ne_of_test hnx rfl) (.inl hnx)
  · refine fpPow_of_isNan _ (isZero_of_expo_ne ?_) hx (.inr hny)
    rw [((isNan_iff y).1 hny).1]
    decide
  · exact fpPow_of_isInf _ (by decide) (by decide) hiy
  · exact fpPow_of_isInf_of_one_lt _ hnx h rfl
  · exact fpPow_of_isInf_of_one_lt _ hnx h rfl
  · exact fpPow_of_isInf_of_lt_one _ h rfl
  · exact fpPow_of_isInf_of_lt_one _ h rfl
  have hfin {r : Word} (hn : isNan r = false) (hr : r ≠ Pat.one) :
      fpPow Config.cfg r y = powFiniteExponent Config.cfg r y := fpPow_of_finiteExponent _ hn hr hfy hzy
  have hneg : sgn x = true → logDomain (fabs x) → fpPow Config.cfg x y = powFiniteExponent Config.cfg x y :=
    fun hs hd => hfin (by simpa using isNan_of_isFinite hd.1) (ne_of_test hs rfl)
  refine ⟨fun hix => ?_, fun hzx => ?_, fun hfx hzx hs hc => ?_, fun hc => ?_, fun hc => ?_, fun hd hs hc => ?_,
    fun hd hs hc => ?_, fun hd => ?_⟩
  · rw [hfin (isNan_of_isInf hix) (ne_of_test hix rfl), powFiniteExponent_of_isInf _ hix]
  · rw [hfin (isNan_of_isZero hzx) (ne_of_test hzx rfl), powFiniteExponent_of_isZero _ hzx]
  · rw [hfin (isNan_of_isFinite hfx) (ne_of_test hs rfl), powFiniteExponent_of_nonint _ hfx hzx hs hc]
  · rw [hfin (by decide) (by decide), powFiniteExponent_minusOne _ (by simp [hc]), hc]
    rfl
  · rw [hfin (by decide) (by decide), powFiniteExponent_minusOne _ (by simp [hc]), hc]
    rfl
  · rw [hneg hs hd, powFiniteExponent_of_logDomain _ hd hs (by simp [hc]), hc, if_pos rfl]
  · rw [hneg hs hd, powFiniteExponent_of_logDomain _ hd hs (by simp [hc]), hc, if_neg (by decide)]
    exact BitVec.zero_or
  · exact fpPow_of_powDomain _ ⟨hd, hfy, hzy⟩

end Sys2Proof.Machine

/-! PROOFS of the trigonometric family (47_trig.md): the reducer as an exact remainder, SIN line by line, why sine and
cosine of a finite operand are finite, COS and TAN from `2^26` on, and the constants with the worked values. -/

namespace Sys2Proof.Machine

theorem gives_sin_iff {a v : Word} : Gives (.sin a) v ↔ v = fpSin a := gives_iff _ _

theorem gives_cos_iff {a v : Word} : Gives (.cos a) v ↔ v = fpCos a := gives_iff _ _

theorem gives_tan_iff {a v : Word} : Gives (.tan a) v ↔ v = fpTan a := gives_iff _ _

/-! ## The constants (R216, R230) -/

/-- A positive pattern as an integer over a power of two, and the unit of its last place, read off its fields. -/
theorem val_ulp_of_fields {r : Word} {m k : Nat} (hs : sgn r = false) (hm : magnitude r = m)
    (he : max (expo r) 1 + k = 150) : val r = m / 2 ^ k ∧ ulp r = 1 / 2 ^ k := by
  have hu : ulp r = 1 / 2 ^ k := by
    rw [ulp, ← he, pow_add, div_mul_cancel_left₀ (by positivity), one_div]
  have hv : signedMantissa r = m := by simp [signedMantissa, hs, hm]
  rw [val_eq_signedMantissa_mul_ulp, hv, hu, mul_one_div]
  exact ⟨rfl, rfl⟩

theorem val_ulp_pi : val Pat.pi = (0xC90FDB : Nat) / 2 ^ 22 ∧ ulp Pat.pi = 1 / 2 ^ 22 :=
  val_ulp_of_fields (by decide) (by decide) (by decide)

theorem val_ulp_twoPi : val Pat.twoPi = (0xC90FDB : Nat) / 2 ^ 21 ∧ ulp Pat.twoPi = 1 / 2 ^ 21 :=
  val_ulp_of_fields (by decide) (by decide) (by decide)

theorem val_ulp_halfPi : val Pat.halfPi = (0xC90FDB : Nat) / 2 ^ 23 ∧ ulp Pat.halfPi = 1 / 2 ^ 23 :=
  val_ulp_of_fields (by decide) (by decide) (by decide)

theorem val_ulp_quarterPi : val Pat.quarterPi = (0xC90FDB : Nat) / 2 ^ 24 ∧ ulp Pat.quarterPi = 1 / 2 ^ 24 :=
  val_ulp_of_fields (by decide) (by decide) (by decide)

theorem val_ulp_threeQuarterPi :
    val Pat.threeQuarterPi = (0x96CBE4 : Nat) / 2 ^ 22 ∧ ulp Pat.threeQuarterPi = 1 / 2 ^ 22 :=
  val_ulp_of_fields (by decide) (by decide) (by decide)

theorem val_ulp_fivePiSq : val Pat.fivePiSq = (0xC56460 : Nat) / 2 ^ 18 ∧ ulp Pat.fivePiSq = 1 / 2 ^ 18 :=
  val_ulp_of_fields (by decide) (by decide) (by decide)

theorem val_sixteen : val Pat.sixteen = 16 :=
  (val_ulp_of_fields (m := 2 ^ 23) (k := 19) (by decide) (by decide) (by decide)).1.trans (by norm_num)

theorem val_four : val Pat.four = 4 :=
  (val_ulp_of_fields (m := 2 ^ 23) (k := 21) (by decide) (by decide) (by decide)).1.trans (by norm_num)

/-- A constant lies within half an ulp of `y` when `y` lies that near its fraction. -/
theorem abs_val_sub_lt_half_ulp {r : Word} {m k : Nat} {y : ℝ} (h : val r = m / 2 ^ k ∧ ulp r = 1 / 2 ^ k)
    (hl : m - 1 / 2 < y * 2 ^ k) (hu : y * 2 ^ k < m + 1 / 2) : |(val r : ℝ) - y| < (ulp r : ℝ) / 2 := by
  obtain ⟨hv, hulp⟩ := h
  have hk : (0 : ℝ) < 2 ^ k := by positivity
  have hd : (val r : ℝ) - y = (m - y * 2 ^ k) / 2 ^ k := by
    rw [hv]
    push_cast
    field_simp
  rw [hd, abs_div, abs_of_pos hk, div_lt_iff₀ hk, hulp]
  push_cast
  rw [div_div, div_mul_eq_mul_div, one_mul, mul_comm _ (2 : ℝ), div_mul_cancel_right₀ hk.ne', abs_lt]
  exact ⟨by linarith, by linarith⟩

/-- Settles O60: the first 20 decimals of `pi` place each real number within half a unit of the constant's fraction. -/
theorem trigonometricConstantsAreNearest : Obligations.TrigonometricConstantsAreNearest := by
  have hl := Real.pi_gt_d20
  have hu := Real.pi_lt_d20
  have hsql : (3.14159265358979323846 : ℝ) ^ 2 < Real.pi ^ 2 := by gcongr
  have hsqu : Real.pi ^ 2 < (3.14159265358979323847 : ℝ) ^ 2 := by gcongr
  norm_num at hsql hsqu
  refine ⟨abs_val_sub_lt_half_ulp val_ulp_pi ?_ ?_, abs_val_sub_lt_half_ulp val_ulp_twoPi ?_ ?_,
    abs_val_sub_lt_half_ulp val_ulp_halfPi ?_ ?_, abs_val_sub_lt_half_ulp val_ulp_quarterPi ?_ ?_,
    abs_val_sub_lt_half_ulp val_ulp_threeQuarterPi ?_ ?_, abs_val_sub_lt_half_ulp val_ulp_fivePiSq ?_ ?_,
    val_sixteen, val_four, ?_, ?_, ?_, _, _, gives_mul _ _, gives_mul _ _, by decide +kernel⟩
  iterate 12 (norm_num; linarith)
  · rw [val_ulp_twoPi.1, val_ulp_pi.1]
    norm_num
  · rw [val_ulp_pi.1, val_ulp_halfPi.1]
    norm_num
  · rw [val_ulp_halfPi.1, val_ulp_quarterPi.1]
    norm_num

/-! ## The reducer (R217) -/

theorem remainderLoop_modEq (my n r : Nat) : remainderLoop my n r ≡ r * 2 ^ n [MOD my] := by
  induction n generalizing r with
  | zero => simp [remainderLoop, Nat.ModEq.refl]
  | succ n ih =>
    have hsub : (if my ≤ r then r - my else r) ≡ r [MOD my] := by
      split
      · next h => exact (Nat.modEq_iff_dvd' (Nat.sub_le r my)).2 (by rw [Nat.sub_sub_self h])
      · rfl
    calc remainderLoop my (n + 1) r ≡ ((if my ≤ r then r - my else r) <<< 1) * 2 ^ n [MOD my] := ih _
      _ = (if my ≤ r then r - my else r) * 2 ^ (n + 1) := by rw [Nat.shiftLeft_eq, pow_one, mul_assoc, pow_succ']
      _ ≡ r * 2 ^ (n + 1) [MOD my] := hsub.mul_right _

/-- The loop with the last subtraction is the remainder of the shifted significand. -/
theorem remainderLoop_final {my n r : Nat} (h : r < 2 * my) :
    (if my ≤ remainderLoop my n r then remainderLoop my n r - my else remainderLoop my n r) = r * 2 ^ n % my := by
  have hlt := remainderLoop_lt my n r h
  rw [← remainderLoop_modEq my n r]
  split
  · next hle => rw [Nat.mod_eq_sub_mod hle, Nat.mod_eq_of_lt (by omega)]
  · next hlt => rw [Nat.mod_eq_of_lt (by omega)]

/-- A number of at most 24 bits is renormalised and packed without error, where the result is normal. -/
theorem abs_val_pack_normalizeMag (s : Bool) {n : Nat} {e : Int} (h0 : n ≠ 0) (hn : n < 2 ^ 24) (he : 24 ≤ e)
    (he' : e < 255) : |val (pack s (normalizeMag n e).1 (normalizeMag n e).2)| = n * (2 : Rat) ^ (e - 150) := by
  obtain ⟨hlo, hhi, hleft, -⟩ := normalizeMag_spec n e h0
  obtain ⟨k, hm, hk⟩ := hleft hn
  have hlog : (normalizeMag n e).2 = e + n.log2 - 23 := normalizeMag_exponent n e
  generalize n.log2 = p at hlog
  rw [(abs_val_pack_of_normal s hlo hhi (by omega) (by omega)).2, hm, hk,
    ← zpow_mul_pow (i := e - k - 150) (n := k) (j := e - 150) (by ring)]
  push_cast
  ring

/-- The test of R217 that leaves the operand as it is: its magnitude is below that of `TWO_PI`. -/
def BelowTwoPi (a : Word) : Prop := (norm a).2 < 129 ∨ (norm a).2 = 129 ∧ (norm a).1 < 0xC90FDB

theorem BelowTwoPi.abs_val_lt {a : Word} (h : BelowTwoPi a) (hf : isFinite a = true) (hz : isZero a = false) :
    |val a| < val Pat.twoPi := by
  have hm : ((norm a).1 : Rat) < 2 ^ 24 := by exact_mod_cast (norm_spec a hf hz).2.1
  rw [abs_val_eq_norm hf hz, val_ulp_twoPi.1]
  rcases h with he | ⟨he, hlt⟩
  · calc ((norm a).1 : Rat) * (2 : Rat) ^ ((norm a).2 - 150)
        ≤ 2 ^ 24 * (2 : Rat) ^ (-22 : Int) := by
          gcongr
          · exact one_le_two
          · omega
      _ < (0xC90FDB : Nat) / 2 ^ 21 := by norm_num
  · have hlt' : ((norm a).1 : Rat) < (0xC90FDB : Nat) := by exact_mod_cast hlt
    rw [he, show ((2 : Rat) ^ (129 - 150 : Int)) = 1 / 2 ^ 21 by norm_num, mul_one_div]
    gcongr

theorem fmodTwoPi_of_isZero {a : Word} (hz : isZero a = true) : fmodTwoPi a = a := if_pos hz

theorem fmodTwoPi_of_belowTwoPi {a : Word} (hz : isZero a = false) (h : BelowTwoPi a) : fmodTwoPi a = a := by
  rw [fmodTwoPi, hz, if_neg Bool.false_ne_true]
  exact if_pos h

/-- The magnitude of an operand with `ex >= 129` in units of `2^-21`, the unit of `TWO_PI`. -/
def scaledSignificand (a : Word) : Nat := (norm a).1 * 2 ^ ((norm a).2 - 129).toNat

theorem abs_val_eq_scaledSignificand {a : Word} (hf : isFinite a = true) (hz : isZero a = false)
    (h : 129 ≤ (norm a).2) : |val a| = scaledSignificand a / 2 ^ 21 := by
  rw [abs_val_eq_norm hf hz, eq_div_iff (by positivity), mul_assoc, zpow_mul_pow (j := (norm a).2 - 129) (by omega),
    scaledSignificand, Nat.cast_mul, Nat.cast_pow, Nat.cast_ofNat, ← zpow_natCast, Int.toNat_of_nonneg (by omega)]

/-- What the loop leaves is packed at the exponent of `TWO_PI`. -/
theorem fmodTwoPi_of_not_belowTwoPi {a : Word} (hf : isFinite a = true) (hz : isZero a = false) (h : ¬ BelowTwoPi a) :
    fmodTwoPi a = if scaledSignificand a % 0xC90FDB = 0 then pattern (sgn a) 0 0
      else pack (sgn a) (normalizeMag (scaledSignificand a % 0xC90FDB) 129).1
        (normalizeMag (scaledSignificand a % 0xC90FDB) 129).2 := by
  have hm := (norm_spec a hf hz).2.1
  rw [scaledSignificand, ← remainderLoop_final (by omega), fmodTwoPi, hz, if_neg Bool.false_ne_true]
  exact if_neg h

theorem fmodTwoPi_spec_of_not_belowTwoPi {a : Word} (hf : isFinite a = true) (hz : isZero a = false)
    (h : ¬ BelowTwoPi a) : sgn (fmodTwoPi a) = sgn a ∧
      |val (fmodTwoPi a)| = (scaledSignificand a % 0xC90FDB : Nat) / 2 ^ 21 := by
  have hr : scaledSignificand a % 0xC90FDB < 0xC90FDB := Nat.mod_lt _ (by norm_num)
  rw [fmodTwoPi_of_not_belowTwoPi hf hz h]
  generalize scaledSignificand a % 0xC90FDB = r at hr
  split
  · next h0 =>
    have hv : |val (pattern (sgn a) 0 0)| = 0 := (isZero_iff_abs_val (by simp [isFinite])).1 (by simp [isZero])
    rw [sgn_pattern, hv, h0]
    simp
  · next h0 =>
    rw [sgn_pack, abs_val_pack_normalizeMag _ h0 (by omega) (by norm_num) (by norm_num)]
    exact ⟨rfl, by rw [div_eq_mul_inv]; norm_num⟩

/-- The remainder of natural numbers through the floor of their rational quotient, in units of `1 / c`. -/
theorem natCast_mod_div (A B : Nat) (c : Rat) : ((A % B : Nat) : Rat) / c = A / c - (⌊(A : Rat) / B⌋ : Rat) * (B / c) := by
  have hfloor : ⌊(A : Rat) / B⌋ = ((A / B : Nat) : Int) := Rat.floor_natCast_div_natCast A B
  have hdiv : (A : Rat) = B * (A / B : Nat) + (A % B : Nat) := by exact_mod_cast (Nat.div_add_mod A B).symm
  rw [hfloor, Int.cast_natCast, eq_sub_iff_add_eq]
  rw [hdiv]
  ring

/-- Settles O53: below `TWO_PI` the quotient is 0; else the loop leaves the remainder of the operand's significand, scaled
to the unit of `TWO_PI`, by that of `TWO_PI` (`remainderLoop_final`), which is packed without error. -/
theorem reducerIsExactRemainder : Obligations.ReducerIsExactRemainder := fun a hf => by
  have hpos : 0 < val Pat.twoPi := by rw [val_ulp_twoPi.1]; norm_num
  have hfin : isFinite (fmodTwoPi a) = true := by
    have := expo_fmodTwoPi_le hf
    exact isFinite_of_expo_lt (by omega)
  suffices hspec : sgn (fmodTwoPi a) = sgn a ∧
      |val (fmodTwoPi a)| = |val a| - (⌊|val a| / val Pat.twoPi⌋ : Rat) * val Pat.twoPi by
    obtain ⟨hs, hv⟩ := hspec
    exact ⟨hfin, hs, hv ▸ Int.sub_floor_div_mul_lt _ hpos, hv⟩
  have hself (h : |val a| < val Pat.twoPi) :
      |val a| = |val a| - (⌊|val a| / val Pat.twoPi⌋ : Rat) * val Pat.twoPi := by
    have h0 : ⌊|val a| / val Pat.twoPi⌋ = 0 := Int.floor_eq_zero_iff.2 ⟨by positivity, (div_lt_one hpos).2 h⟩
    rw [h0, Int.cast_zero, zero_mul, sub_zero]
  cases hz : isZero a
  · by_cases hb : BelowTwoPi a
    · rw [fmodTwoPi_of_belowTwoPi hz hb]
      exact ⟨rfl, hself (hb.abs_val_lt hf hz)⟩
    · obtain ⟨hs, hv⟩ := fmodTwoPi_spec_of_not_belowTwoPi hf hz hb
      have he : 129 ≤ (norm a).2 := not_lt.1 fun he => hb (.inl he)
      rw [hv, abs_val_eq_scaledSignificand hf hz he, val_ulp_twoPi.1, div_div_div_cancel_right₀ (by positivity)]
      exact ⟨hs, natCast_mod_div _ _ _⟩
  · rw [fmodTwoPi_of_isZero hz]
    exact ⟨rfl, hself (((isZero_iff_abs_val hf).1 hz).trans_lt hpos)⟩

/-! ## SIN line by line (R215, R218) -/

theorem fpSin_of_not_finite {a : Word} (h : isNan a = true ∨ isInf a = true) : fpSin a = Pat.cnan :=
  if_pos (by simpa using h)

theorem fpSin_of_finite {a : Word} (h : isFinite a = true) : fpSin a = sinReflect (sinWrap (fmodTwoPi a)) :=
  if_neg (by simp [isNan_of_isFinite h, isInf_of_isFinite h])

/-- Line 5 of R215. -/
def reflected (x : Word) : Word := if fpGt x Pat.pi then fpSub Pat.twoPi x else x

theorem sinReflect_eq (x : Word) : sinReflect x =
    if fpGt x Pat.pi then fpNeg (bhaskara (reflected x)) else bhaskara (reflected x) := by
  unfold sinReflect reflected
  split <;> rfl

/-- A line of R215 that runs an operation, or leaves the word as it is. -/
theorem gives_or_eq_ite (c : Bool) {i : Instr} {v w : Word} (h : Gives i v) :
    if c then Gives i (if c then v else w) else (if c then v else w) = w := by
  cases c
  · rfl
  · exact h

/-- Settles O52: the lines of R215 are `sinWrap` and `sinReflect`, with the steps of R218 between. -/
theorem sinIsReducedBhaskara : Obligations.SinIsReducedBhaskara := fun a => by
  refine ⟨fun h => gives_sin_iff.2 (fpSin_of_not_finite h).symm, fun hf => ?_⟩
  refine ⟨sinWrap (fmodTwoPi a), reflected (sinWrap (fmodTwoPi a)), _, _, _, _, _, _,
    bhaskara (reflected (sinWrap (fmodTwoPi a))), sinReflect (sinWrap (fmodTwoPi a)),
    gives_or_eq_ite _ (gives_add _ _), gives_or_eq_ite _ (gives_sub _ _), gives_sub _ _, gives_mul _ _, gives_mul _ _,
    gives_mul _ _, gives_mul _ _, gives_sub _ _, gives_div _ _, ?_, gives_sin_iff.2 (fpSin_of_finite hf).symm⟩
  rw [sinReflect_eq]
  exact gives_or_eq_ite _ (gives_neg _)

/-! ## Large operands and worked values (R219 to R221) -/

theorem fpAdd_halfPi_of_large {a : Word} (hf : isFinite a = true) (h : 153 ≤ expo a) : fpAdd a Pat.halfPi = a := by
  have hc : expo Pat.halfPi = 127 := by decide
  exact fpAdd_of_expo_gap hf (by decide) (by omega)

/-- A pattern divided by itself is 1 or a NaN. -/
theorem fpDiv_self_eq (v : Word) : fpDiv v v = if isFinite v && !isZero v then Pat.one else Pat.cnan := by
  cases hf : isFinite v
  · cases hn : isNan v
    · have hi := isInf_of_not_finite hn hf
      exact fpDiv_of_isInf_of_isInf hi hi
    · exact fpDiv_of_isNan (.inl hn)
  · cases hz : isZero v
    · exact fpDiv_self hf hz
    · rw [fpDiv_of_isFinite_of_zero hf hf (.inl hz), hz]
      rfl

/-- Settles O55: `HALF_PI` is absorbed, so COS is SIN, and TAN divides it by itself. -/
theorem largeOperandCosineIsSine : Obligations.LargeOperandCosineIsSine := fun a hf h => by
  have hcos : fpCos a = fpSin a := congrArg fpSin (fpAdd_halfPi_of_large hf h)
  refine ⟨fpSin a, gives_sin a, gives_cos_iff.2 hcos.symm, gives_tan_iff.2 ?_⟩
  rw [← fpDiv_self_eq, fpTan, hcos]

/-- Settles O56: the rows are evaluated in the model. -/
theorem workedTrigonometricValues : Obligations.WorkedTrigonometricValues := by
  unfold Obligations.WorkedTrigonometricValues
  simp only [gives_sin_iff, gives_cos_iff, gives_tan_iff]
  decide +kernel

/-! ## Value bounds

Below the exponent field 144 an ulp is at most `2^-7`, and that is all the error a block operation makes. -/

theorem ulp_le {r : Word} (h : expo r ≤ 143) : ulp r ≤ 1 / 128 := by
  rw [ulp_eq]
  calc (2 : Rat) ^ ((max (expo r) 1 : Nat) - 150 : Int) ≤ 2 ^ (-7 : Int) := zpow_le_zpow_right₀ one_le_two (by omega)
    _ = 1 / 128 := by norm_num

theorem abs_val_fpAdd_sub_le {a b : Word} (ha : expo a ≤ 142) (hb : expo b ≤ 142) :
    |val (fpAdd a b) - (val a + val b)| ≤ 1 / 128 := by
  have hfa : isFinite a = true := isFinite_of_expo_lt (by omega)
  have hfb : isFinite b = true := isFinite_of_expo_lt (by omega)
  have he := expo_fpAdd_le hfa hfb
  exact ((approximatesSum_fpAdd hfa hfb).within_ulp (isFinite_of_expo_lt (by omega))).trans (ulp_le (by omega))

theorem abs_val_fpSub_sub_le {a b : Word} (ha : expo a ≤ 142) (hb : expo b ≤ 142) :
    |val (fpSub a b) - (val a - val b)| ≤ 1 / 128 := by
  have h := abs_val_fpAdd_sub_le ha (b := fneg b) (by simpa using hb)
  rwa [val_fneg, ← sub_eq_add_neg] at h

theorem abs_val_fpMul_sub_le {a b : Word} (ha : isFinite a = true) (hb : isFinite b = true)
    (h : max (expo a) 1 + max (expo b) 1 ≤ 269) : |val (fpMul a b) - val a * val b| ≤ 1 / 128 := by
  have he := expo_fpMul_le ha hb
  rcases fpMul_cases ha hb with ⟨hz, hv⟩ | ⟨hza, hzb, -⟩
  · have h0 : val (pattern (xorSign a b) 0 0) = 0 :=
      abs_eq_zero.1 ((isZero_iff_abs_val (by simp [isFinite])).1 (by simp [isZero]))
    have hab : val a * val b = 0 := mul_eq_zero.2 (hz.imp
      (fun hz => abs_eq_zero.1 ((isZero_iff_abs_val ha).1 hz)) fun hz => abs_eq_zero.1 ((isZero_iff_abs_val hb).1 hz))
    rw [hv, h0, hab]
    norm_num
  · obtain ⟨_, hv, -, -, hulp, -⟩ := mulWithinOneUlp a b _ _ ha hza hb hzb (gives_normman_iff.2 rfl)
      (gives_normman_iff.2 rfl)
    obtain rfl := gives_mul_iff.1 hv
    exact (hulp (isFinite_of_expo_lt (by omega))).le.trans (ulp_le (by omega))

theorem abs_val_lt_of_isFinite {r : Word} (h : isFinite r = true) : |val r| < 2 ^ 128 := by
  have hlt := expo_lt_of_isFinite h
  calc |val r| ≤ (2 ^ 24 - 1) * (2 : Rat) ^ (254 - 150 : Int) := abs_val_le_of_expo_le (by omega)
    _ < 2 ^ 128 := by norm_num

/-- A divisor of magnitude 1 or more lets no quotient overflow. -/
theorem isFinite_fpDiv {a b : Word} (ha : isFinite a = true) (hb : isFinite b = true) (h1 : 1 ≤ |val b|) :
    isFinite (fpDiv a b) = true := by
  have hzb : isZero b = false := Bool.eq_false_iff.2 fun hz => by
    rw [(isZero_iff_abs_val hb).1 hz] at h1
    norm_num at h1
  cases hza : isZero a
  · obtain ⟨_, hv, hn, -, -, -, -, hinf⟩ := divTruncates a b _ _ ha hza hb hzb (gives_normman_iff.2 rfl)
      (gives_normman_iff.2 rfl)
    obtain rfl := gives_div_iff.1 hv
    have hq : |val a / val b| < 2 ^ 128 := by
      rw [abs_div]
      exact (div_le_self (abs_nonneg _) h1).trans_lt (abs_val_lt_of_isFinite ha)
    exact isFinite_of_not hn (Bool.eq_false_iff.2 fun hi => (hinf.1 hi).not_gt hq)
  · rw [fpDiv_of_isFinite_of_zero ha hb (.inl hza), hzb]
    simp [isFinite]

/-! ## The order of patterns and of values (R9, R10) -/

theorem absUnits_le_of_fabs_le {a b : Word} (h : (fabs a).toNat ≤ (fabs b).toNat) : absUnits a ≤ absUnits b := by
  have hma := mant_lt a
  have hmb := mant_lt b
  rw [fabs_toNat, fabs_toNat] at h
  rcases (show max (expo a) 1 ≤ max (expo b) 1 by omega).eq_or_lt with he | hlt
  · have hmag : magnitude a ≤ magnitude b := by
      unfold magnitude
      split <;> split <;> omega
    rw [absUnits, absUnits, he, Nat.shiftLeft_eq, Nat.shiftLeft_eq]
    exact Nat.mul_le_mul_right _ hmag
  · calc absUnits a ≤ 2 ^ (23 + (expo b - 1)) := (absUnits_lt (by omega) (by omega)).le
      _ = 2 ^ 23 * 2 ^ (expo b - 1) := pow_add _ _ _
      _ ≤ (mant b + 2 ^ 23) * 2 ^ (expo b - 1) := Nat.mul_le_mul_right _ (Nat.le_add_left _ _)
      _ = absUnits b := (absUnits_of_normal (by omega)).symm

theorem abs_val_le_of_fabs_le {a b : Word} (h : (fabs a).toNat ≤ (fabs b).toNat) : |val a| ≤ |val b| := by
  have := absUnits_le_of_fabs_le h
  rw [abs_val, abs_val]
  gcongr

theorem val_nonneg {r : Word} (h : sgn r = false) : 0 ≤ val r := by
  rw [val_of_sgn_false h]
  exact abs_nonneg _

theorem val_nonpos {r : Word} (h : sgn r = true) : val r ≤ 0 := by
  rw [val_of_sgn_true h]
  exact neg_nonpos.2 (abs_nonneg _)

theorem val_eq_zero_of_fabs {r : Word} (h : (fabs r).toNat = 0) : val r = 0 := by
  have hle := abs_val_le_of_fabs_le (b := Pat.zero) (h.trans_le (Nat.zero_le _))
  rw [val_zero, abs_zero] at hle
  exact abs_nonpos_iff.1 hle

/-- The comparison key orders the values: the signs first, and then the magnitudes. -/
theorem val_le_of_key_le {a b : Word} (h : key a ≤ key b) : val a ≤ val b := by
  unfold key at h
  cases hsa : sgn a <;> cases hsb : sgn b <;> rw [hsa, hsb] at h
  · rw [val_of_sgn_false hsa, val_of_sgn_false hsb]
    exact abs_val_le_of_fabs_le (by simpa using h)
  · simp only [if_true, Bool.false_eq_true, if_false] at h
    rw [val_eq_zero_of_fabs (r := a) (by omega), val_eq_zero_of_fabs (r := b) (by omega)]
  · exact (val_nonpos hsa).trans (val_nonneg hsb)
  · rw [val_of_sgn_true hsa, val_of_sgn_true hsb]
    exact neg_le_neg (abs_val_le_of_fabs_le (by simpa using h))

theorem val_le_of_fpLt {a b : Word} (h : fpLt a b = true) : val a ≤ val b := by
  obtain ⟨-, hk⟩ : (isNan a = false ∧ isNan b = false) ∧ key a < key b := by simpa [fpLt] using h
  exact val_le_of_key_le hk.le

theorem val_le_of_not_fpLt {a b : Word} (ha : isNan a = false) (hb : isNan b = false) (h : fpLt a b = false) :
    val b ≤ val a :=
  val_le_of_key_le (by simpa [fpLt, ha, hb] using h)

/-! ## Sine and cosine are finite (R218, R219) -/

theorem pi_bounds : 3 < val Pat.pi ∧ val Pat.pi < 3.1416 ∧ val Pat.twoPi = 2 * val Pat.pi ∧ 49 < val Pat.fivePiSq := by
  rw [val_ulp_pi.1, val_ulp_twoPi.1, val_ulp_fivePiSq.1]
  norm_num

/-- The numbers of R218 on a little more than `[0, pi]`, each within `2^-7` of what it is computed from: `q` is `4x` and
`t` is `4x(pi - x)`, which stays below 43, so the denominator `d` is above 6. -/
theorem one_le_denominator {x p q t d : Rat} (hl : -(1 / 8) ≤ x) (hu : x ≤ 13 / 4)
    (hp : |p - (val Pat.pi - x)| ≤ 1 / 128) (hq : |q - 4 * x| ≤ 1 / 128) (ht : |t - q * p| ≤ 1 / 128)
    (hd : |d - (val Pat.fivePiSq - t)| ≤ 1 / 128) : 1 ≤ d := by
  obtain ⟨hpi, hpi', -, hfive⟩ := pi_bounds
  rw [abs_le] at hp hq ht hd
  have hqp : q * p ≤ 13.01 * 3.28 :=
    calc q * p ≤ |q| * |p| := (le_abs_self _).trans (abs_mul q p).le
      _ ≤ 13.01 * 3.28 := mul_le_mul (abs_le.2 ⟨by linarith, by linarith⟩) (abs_le.2 ⟨by linarith, by linarith⟩)
        (abs_nonneg _) (by norm_num)
  linarith

theorem isFinite_bhaskara {x : Word} (he : expo x ≤ 132) (hl : -(1 / 8) ≤ val x) (hu : val x ≤ 13 / 4) :
    isFinite (bhaskara x) = true := by
  have cpi : expo Pat.pi = 128 := by decide
  have cfive : expo Pat.fivePiSq = 132 := by decide
  have c4 : expo Pat.four = 129 := by decide
  have fx : isFinite x = true := isFinite_of_expo_lt (by omega)
  have ep := expo_fpSub_le (a := Pat.pi) (by decide) fx
  have fp : isFinite (fpSub Pat.pi x) = true := isFinite_of_expo_lt (by omega)
  have e16 := expo_sixteen_mul_le he
  have e4 := expo_four_mul_le he
  have f4 : isFinite (fpMul Pat.four x) = true := isFinite_of_expo_lt (by omega)
  have enum := expo_fpMul_le (a := fpMul Pat.sixteen x) (isFinite_of_expo_lt (by omega)) fp
  have et := expo_fpMul_le f4 fp
  have eden := expo_fpSub_le (a := Pat.fivePiSq) (by decide)
    (isFinite_of_expo_lt (r := fpMul (fpMul Pat.four x) (fpSub Pat.pi x)) (by omega))
  have hden : 1 ≤ val (fpSub Pat.fivePiSq (fpMul (fpMul Pat.four x) (fpSub Pat.pi x))) :=
    one_le_denominator hl hu (abs_val_fpSub_sub_le (by omega) (by omega))
      (val_four ▸ abs_val_fpMul_sub_le (by decide) fx (by omega)) (abs_val_fpMul_sub_le f4 fp (by omega))
      (abs_val_fpSub_sub_le (by omega) (by omega))
  exact isFinite_fpDiv (isFinite_of_expo_lt (by omega)) (isFinite_of_expo_lt (by omega)) (hden.trans (le_abs_self _))

theorem isFinite_sinReflect {x : Word} (he : expo x ≤ 130) (hl : -(1 / 128) ≤ val x)
    (hu : val x ≤ val Pat.twoPi + 1 / 128) : isFinite (sinReflect x) = true := by
  obtain ⟨hpi, hpi', htwo, -⟩ := pi_bounds
  cases h : fpGt x Pat.pi
  · have hx : val x ≤ val Pat.pi := val_le_of_not_fpLt (by decide) (isNan_of_expo_lt (by omega)) h
    rw [sinReflect, h, if_neg Bool.false_ne_true]
    exact isFinite_bhaskara (by omega) (by linarith) (by linarith)
  · have hx : val Pat.pi ≤ val x := val_le_of_fpLt h
    have ctwo : expo Pat.twoPi = 129 := by decide
    have ey := expo_fpSub_le (a := Pat.twoPi) (b := x) (by decide) (isFinite_of_expo_lt (by omega))
    have vy := abs_le.1 (abs_val_fpSub_sub_le (a := Pat.twoPi) (b := x) (by omega) (by omega))
    rw [sinReflect, h, if_pos rfl]
    exact (isFinite_fneg _).trans (isFinite_bhaskara (by omega) (by linarith) (by linarith))

theorem val_sinWrap_bounds {x : Word} (he : expo x ≤ 129) (hx : |val x| < val Pat.twoPi) :
    -(1 / 128) ≤ val (sinWrap x) ∧ val (sinWrap x) ≤ val Pat.twoPi + 1 / 128 := by
  have ctwo : expo Pat.twoPi = 129 := by decide
  obtain ⟨hl, hu⟩ := abs_lt.1 hx
  unfold sinWrap
  cases h : fpLt x Pat.zero
  · have h0 := val_le_of_not_fpLt (isNan_of_expo_lt (by omega)) (by decide) h
    rw [val_zero] at h0
    exact ⟨by norm_num; linarith, by norm_num; linarith⟩
  · have h0 := val_le_of_fpLt h
    have hv := abs_le.1 (abs_val_fpAdd_sub_le (a := x) (b := Pat.twoPi) (by omega) (by omega))
    rw [val_zero] at h0
    exact ⟨by norm_num; linarith, by norm_num; linarith⟩

theorem isFinite_fpSin {a : Word} (hf : isFinite a = true) : isFinite (fpSin a) = true := by
  have he := expo_fmodTwoPi_le hf
  obtain ⟨hl, hu⟩ := val_sinWrap_bounds he (reducerIsExactRemainder a hf).2.2.1
  rw [fpSin_of_finite hf]
  exact isFinite_sinReflect (expo_sinWrap_le he) hl hu

theorem isFinite_fpAdd_halfPi {a : Word} (hf : isFinite a = true) : isFinite (fpAdd a Pat.halfPi) = true := by
  by_cases h : 153 ≤ expo a
  · rwa [fpAdd_halfPi_of_large hf h]
  · have he := expo_fpAdd_le (b := Pat.halfPi) hf (by decide)
    have hc : expo Pat.halfPi = 127 := by decide
    exact isFinite_of_expo_lt (by omega)

/-- Settles O54: the reduced argument is within the additions' errors of `[0, 2pi]`, the reflected one of `[0, pi]`, where
the denominator is above 1 (`isFinite_bhaskara`). -/
theorem sineAndCosineOfFiniteAreFinite : Obligations.SineAndCosineOfFiniteAreFinite := fun a hf =>
  ⟨⟨_, gives_sin a, isFinite_fpSin hf⟩, _, gives_cos a, isFinite_fpSin (isFinite_fpAdd_halfPi hf)⟩

end Sys2Proof.Machine

/-! PROOFS of the inverse trigonometric family (48_inverse_trig.md): the lines of ATAN, ASIN, ACOS and ATAN2, and from the
lines and the contracts of the cores the range of every result. -/

namespace Sys2Proof.Machine

/-! ## A sign over a constant, and the range it gives -/

theorem signBit_or_eq_ite (a r : Word) : signBit a ||| r = if sgn a then 0x80000000#32 ||| r else r := by
  rw [signBit_eq]
  split
  · rfl
  · exact BitVec.zero_or

/-- The range of a result: no NaN, the sign of `a`, a magnitude pattern of at most `bound` (R235, R239, R250). -/
def SignedWithin (bound a v : Word) : Prop := isNan v = false ∧ sgn v = sgn a ∧ fabs v ≤ bound

theorem signedWithin_signBit_or (a : Word) {bound r : Word} (hb : bound.toNat ≤ 0x7F800000) (hs : sgn r = false)
    (h : r ≤ bound) : SignedWithin bound a (signBit a ||| r) := by
  have hspec := signedBelow_spec bound a r hb
  rwa [signedBelow, fabs_of_nonneg hs, if_pos h] at hspec

theorem signedWithin_of_isZero (bound : Word) {a : Word} (h : isZero a = true) : SignedWithin bound a a := by
  refine ⟨isNan_of_isZero h, rfl, ?_⟩
  rw [(fabs_eq_zero_iff a).2 h]
  exact Nat.zero_le _

/-! ## The lines of ATAN, ASIN and ACOS (R233, R237, R241) -/

theorem gives_atan_iff {a v : Word} : Gives (.atan a) v ↔ v = fpAtan Config.cfg a := gives_iff _ _

theorem gives_asin_iff {a v : Word} : Gives (.asin a) v ↔ v = fpAsin Config.cfg a := gives_iff _ _

theorem gives_acos_iff {a v : Word} : Gives (.acos a) v ↔ v = fpAcos Config.cfg a := gives_iff _ _

section
variable (c : Cfg) {a : Word}

theorem fpAtan_of_isNan (h : isNan a = true) : fpAtan c a = Pat.cnan := if_pos h

theorem fpAtan_of_isInf (h : isInf a = true) : fpAtan c a = signBit a ||| Pat.halfPi := by
  simp [fpAtan, isNan_of_isInf h, h]

theorem fpAtan_of_isZero (h : isZero a = true) : fpAtan c a = a := by
  simp [fpAtan, isNan_of_isZero h, isInf_of_isFinite (isFinite_of_isZero h), h]

theorem fpAtan_of_finite (hf : isFinite a = true) (hz : isZero a = false) : fpAtan c a = c.atanCore a := by
  simp [fpAtan, isNan_of_isFinite hf, isInf_of_isFinite hf, hz]

theorem fpAsin_of_isNan (h : isNan a = true) : fpAsin c a = Pat.cnan := if_pos h

theorem fpAsin_of_one_lt (h : Pat.one < fabs a) : fpAsin c a = Pat.cnan := by simp [fpAsin, h]

theorem fpAsin_of_lt_one (h : fabs a < Pat.one) : fpAsin c a = if isZero a then a else c.asinCore a := by
  simp [fpAsin, isNan_of_fabs_lt_one h, BitVec.lt_asymm h, BitVec.ne_of_lt h, fabs_eq_zero_iff]

theorem fpAcos_of_isNan (h : isNan a = true) : fpAcos c a = Pat.cnan := if_pos h

theorem fpAcos_of_one_lt (h : Pat.one < fabs a) : fpAcos c a = Pat.cnan := by simp [fpAcos, h]

theorem fpAcos_of_lt_one (h : fabs a < Pat.one) : fpAcos c a = c.acosCore a := by
  have h1 : a ≠ Pat.one := ne_one_of_fabs_ne (BitVec.ne_of_lt h)
  have hm1 : a ≠ Pat.minusOne := by
    rintro rfl
    exact absurd h (by decide)
  simp [fpAcos, isNan_of_fabs_lt_one h, BitVec.lt_asymm h, h1, hm1]

end

theorem fabs_lt_one_of_isZero {a : Word} (h : isZero a = true) : fabs a < Pat.one := by
  rw [(fabs_eq_zero_iff a).2 h]
  decide

/-- In the domain of the arc sine and the arc cosine the magnitude is below 1, or the operand is 1 or -1. -/
theorem fabs_le_one_cases {a : Word} (h : fabs a ≤ Pat.one) : fabs a < Pat.one ∨ a = Pat.one ∨ a = Pat.minusOne := by
  by_cases h1 : fabs a = Pat.one
  · exact .inr (eq_of_fabs_eq_one h1)
  · exact .inl (BitVec.lt_of_le_ne h h1)

section
variable {c : Cfg} (hc : Cfg.Legal c) {a : Word}
include hc

theorem signedWithin_fpAtan (hn : isNan a = false) : SignedWithin Pat.halfPi a (fpAtan c a) := by
  by_cases hi : isInf a = true
  · rw [fpAtan_of_isInf c hi]
    exact signedWithin_signBit_or a (by decide) rfl (by decide)
  by_cases hz : isZero a = true
  · rw [fpAtan_of_isZero c hz]
    exact signedWithin_of_isZero _ hz
  · rw [Bool.not_eq_true] at hi hz
    have hf := isFinite_of_not hn hi
    rw [fpAtan_of_finite c hf hz]
    exact hc.atanCore a hf hz

theorem signedWithin_fpAsin (h : fabs a ≤ Pat.one) : SignedWithin Pat.halfPi a (fpAsin c a) := by
  obtain h | rfl | rfl := fabs_le_one_cases h
  · rw [fpAsin_of_lt_one c h]
    split
    · next hz => exact signedWithin_of_isZero _ hz
    · next hz => exact hc.asinCore a (by simpa using hz) h
  · exact signedWithin_signBit_or _ (by decide) rfl (by decide)
  · exact signedWithin_signBit_or _ (by decide) rfl (by decide)

/-- The arc cosine has the sign 0 (R243). -/
theorem fpAcos_range (h : fabs a ≤ Pat.one) :
    isNan (fpAcos c a) = false ∧ sgn (fpAcos c a) = false ∧ fpAcos c a ≤ Pat.pi := by
  obtain h | rfl | rfl := fabs_le_one_cases h
  · rw [fpAcos_of_lt_one c h]
    exact hc.acosCore a h
  · show isNan Pat.zero = false ∧ sgn Pat.zero = false ∧ Pat.zero ≤ Pat.pi
    decide
  · show isNan Pat.pi = false ∧ sgn Pat.pi = false ∧ Pat.pi ≤ Pat.pi
    decide

end

/-- Settles O57: each operand's line, and the range of a result from the line that gives it. -/
theorem inverseTrigonometricResults : Obligations.InverseTrigonometricResults := fun a => by
  have hc := configurationMeetsItsContracts
  simp only [gives_atan_iff, gives_asin_iff, gives_acos_iff, eq_comm (b := fpAtan _ _), eq_comm (b := fpAsin _ _),
    eq_comm (b := fpAcos _ _)]
  refine ⟨fun hn => ⟨fpAtan_of_isNan _ hn, fpAsin_of_isNan _ hn, fpAcos_of_isNan _ hn⟩, fun hi => ?_,
    fun hz => ⟨fpAtan_of_isZero _ hz, ?_⟩, fun h => ⟨fpAsin_of_one_lt _ h, fpAcos_of_one_lt _ h⟩, rfl, rfl, rfl, rfl,
    fpAtan_of_finite _, fun hz h => ?_, fpAcos_of_lt_one _, fun hn => ⟨_, rfl, signedWithin_fpAtan hc hn⟩,
    fun h => ⟨_, rfl, signedWithin_fpAsin hc h⟩, fun h => ⟨_, rfl, fpAcos_range hc h⟩⟩
  · exact (fpAtan_of_isInf _ hi).trans (signBit_or_eq_ite a _)
  · rw [fpAsin_of_lt_one _ (fabs_lt_one_of_isZero hz), if_pos hz]
  · rw [fpAsin_of_lt_one _ h, hz, if_neg Bool.false_ne_true]

/-! ## The lines of ATAN2 (R246) -/

theorem gives_atan2_iff {y x v : Word} : Gives (.atan2 y x) v ↔ v = fpAtan2 Config.cfg y x := gives_iff _ _

theorem isZero_of_isInf {r : Word} (h : isInf r = true) : isZero r = false := by
  simp [isZero, ((isInf_iff r).1 h).1]

section
variable (c : Cfg) {y x : Word}

theorem fpAtan2_of_isNan (h : isNan y = true ∨ isNan x = true) : fpAtan2 c y x = Pat.cnan := by simp [fpAtan2, h]

theorem fpAtan2_of_isZero (hzy : isZero y = true) (hnx : isNan x = false) :
    fpAtan2 c y x = if sgn x then signBit y ||| Pat.pi else y := by
  simp [fpAtan2, isNan_of_isZero hzy, hnx, hzy]

theorem fpAtan2_of_isZero_right (hny : isNan y = false) (hzy : isZero y = false) (hzx : isZero x = true) :
    fpAtan2 c y x = signBit y ||| Pat.halfPi := by
  simp [fpAtan2, hny, isNan_of_isZero hzx, hzy, hzx]

theorem fpAtan2_of_isInf_of_isInf (hiy : isInf y = true) (hix : isInf x = true) :
    fpAtan2 c y x = signBit y ||| (if sgn x then Pat.threeQuarterPi else Pat.quarterPi) := by
  simp [fpAtan2, isNan_of_isInf hiy, isNan_of_isInf hix, isZero_of_isInf hiy, isZero_of_isInf hix, hiy, hix]

theorem fpAtan2_of_isFinite_of_isInf (hfy : isFinite y = true) (hzy : isZero y = false) (hix : isInf x = true) :
    fpAtan2 c y x = signBit y ||| (if sgn x then Pat.pi else Pat.zero) := by
  simp [fpAtan2, isNan_of_isFinite hfy, isNan_of_isInf hix, hzy, isZero_of_isInf hix, isInf_of_isFinite hfy, hix]

theorem fpAtan2_of_isInf_of_isFinite (hiy : isInf y = true) (hfx : isFinite x = true) (hzx : isZero x = false) :
    fpAtan2 c y x = signBit y ||| Pat.halfPi := by
  simp [fpAtan2, isNan_of_isInf hiy, isNan_of_isFinite hfx, isZero_of_isInf hiy, hzx, hiy, isInf_of_isFinite hfx]

theorem fpAtan2_of_finite (hfy : isFinite y = true) (hzy : isZero y = false) (hfx : isFinite x = true)
    (hzx : isZero x = false) : fpAtan2 c y x = c.atan2Core y x := by
  simp [fpAtan2, isNan_of_isFinite hfy, isNan_of_isFinite hfx, hzy, hzx, isInf_of_isFinite hfy, isInf_of_isFinite hfx]

end

/-- Every line but the first gives the sign of `y` and at most the pattern of pi (R246, R250). -/
theorem signedWithin_fpAtan2 {c : Cfg} (hc : Cfg.Legal c) {y x : Word} (hny : isNan y = false) (hnx : isNan x = false) :
    SignedWithin Pat.pi y (fpAtan2 c y x) := by
  have hconst (r : Word) (hs : sgn r = false) (h : r ≤ Pat.pi) : SignedWithin Pat.pi y (signBit y ||| r) :=
    signedWithin_signBit_or y (by decide) hs h
  cases hzy : isZero y with
  | true =>
    rw [fpAtan2_of_isZero c hzy hnx]
    split
    · exact hconst _ rfl (by decide)
    · exact signedWithin_of_isZero _ hzy
  | false =>
    cases hzx : isZero x with
    | true =>
      rw [fpAtan2_of_isZero_right c hny hzy hzx]
      exact hconst _ rfl (by decide)
    | false =>
      cases hiy : isInf y <;> cases hix : isInf x
      case true.true =>
        rw [fpAtan2_of_isInf_of_isInf c hiy hix]
        split <;> exact hconst _ rfl (by decide)
      case true.false =>
        rw [fpAtan2_of_isInf_of_isFinite c hiy (isFinite_of_not hnx hix) hzx]
        exact hconst _ rfl (by decide)
      case false.true =>
        rw [fpAtan2_of_isFinite_of_isInf c (isFinite_of_not hny hiy) hzy hix]
        split <;> exact hconst _ rfl (by decide)
      case false.false =>
        have hfy := isFinite_of_not hny hiy
        have hfx := isFinite_of_not hnx hix
        rw [fpAtan2_of_finite c hfy hzy hfx hzx]
        exact hc.atan2Core y x hfy hzy hfx hzx

/-- Settles O58: each row of R247 is the line of R246 that its operands reach. -/
theorem atan2SpecialPairs : Obligations.Atan2SpecialPairs := fun y x => by
  have hc := configurationMeetsItsContracts
  simp only [gives_atan2_iff, eq_comm (b := fpAtan2 _ _ _)]
  refine ⟨fpAtan2_of_isNan _, fun hzy hnx hs => ?_, fun hzy hnx hs => ?_, fun hny hzy hzx => ?_,
    fun hiy => ⟨?_, ?_⟩, fun hfy hzy => ⟨?_, ?_⟩, fun hiy hfx hzx => ?_, fpAtan2_of_finite _,
    fun hny hnx => ⟨_, rfl, signedWithin_fpAtan2 hc hny hnx⟩⟩
  · rw [fpAtan2_of_isZero _ hzy hnx, hs, if_neg Bool.false_ne_true]
  · rw [fpAtan2_of_isZero _ hzy hnx, hs, if_pos rfl]
    exact signBit_or_eq_ite y _
  · exact (fpAtan2_of_isZero_right _ hny hzy hzx).trans (signBit_or_eq_ite y _)
  · exact (fpAtan2_of_isInf_of_isInf _ hiy rfl).trans (signBit_or_eq_ite y _)
  · exact (fpAtan2_of_isInf_of_isInf _ hiy rfl).trans (signBit_or_eq_ite y _)
  · exact (fpAtan2_of_isFinite_of_isInf _ hfy hzy rfl).trans (signBit_or_eq_ite y _)
  · exact (fpAtan2_of_isFinite_of_isInf _ hfy hzy rfl).trans (signBit_or_eq_ite y _)
  · exact (fpAtan2_of_isInf_of_isFinite _ hiy hfx hzx).trans (signBit_or_eq_ite y _)

end Sys2Proof.Machine

/-! PROOFS of the exceptions family (60_exceptions.md) and of the reset and hazards family (70_reset_and_hazards.md): what a
reset discards, runs of legal commands, and the two liveness bounds of R318. -/

namespace Sys2Proof.Machine

/-! ## Reset (R310, R311) -/

/-- Settles O10: with `rst = 1` the ports move nothing and the step is `resetEdge`. -/
theorem resetDiscardsEverything : Obligations.ResetDiscardsEverything := fun s hr =>
  ⟨accepted_of_rst s hr, delivered_of_rst s hr, s.resetEdge, by simp [step, hr], rfl, rfl, rfl⟩

/-! ## Runs of legal commands (R290, R292) -/

theorem legalOps_eq_opTable : legalOps = opTable.map OpRow.op := rfl

theorem commandLegal_iff (w : CommandWord) : commandLegal w = true ↔ ∃ i, decode w = .ok i := by
  rw [decode_ok_iff, commandLegal, legalOps_eq_opTable, List.contains_iff_mem, List.mem_map]
  exact exists_congr fun _ => and_congr_right fun _ => eq_comm

theorem faultFree_of_commandLegal {w : CommandWord} {p : Response} (hw : commandLegal w = true) (hp : Answers w p) :
    p.faultFree := by
  obtain ⟨i, hi⟩ := (commandLegal_iff w).1 hw
  rw [(answers_ok w i hi p).1 hp]
  rfl

/-- Every command in the queue is legal. -/
def State.QueueLegal (s : State) : Prop := ∀ w ∈ s.inflight.map Flight.word, commandLegal w = true

/-- A step, a reset too, puts no command in the queue but the one accepted. -/
theorem mem_words_of_step {s t : State} (h : step s = .next t) {w : CommandWord} (hw : w ∈ t.inflight.map Flight.word) :
    w ∈ s.inflight.map Flight.word ∨ w ∈ s.accepted.toList := by
  obtain ⟨-, rfl⟩ | ⟨hr, -⟩ := step_next_cases h
  · simp at hw
  · rw [step_words hr h, List.mem_append] at hw
    refine hw.imp_left fun hw => ?_
    split at hw
    · rw [List.map_tail] at hw
      exact List.mem_of_mem_tail hw
    · exact hw

theorem delivered_faultFree {s : State} (hs : s.Inv) (hq : s.QueueLegal) {p : Response} (hp : s.delivered = some p) :
    p.faultFree := by
  obtain ⟨f, q, hi, -, hf⟩ := hs.2 p (delivered_rsp s p hp).1
  exact faultFree_of_commandLegal (hq f.word (by simp [hi])) hf

theorem faultFree_of_legal (n : Nat) {s : State} (hs : s.Inv) (hq : s.QueueLegal)
    (ha : ∀ w ∈ acceptedIn n s, commandLegal w = true) : FaultFree n s := by
  induction n generalizing s with
  | zero => simp [FaultFree, deliveredIn]
  | succ n ih =>
    obtain ⟨t, ht⟩ | hstop := (stepStopsOnlyOnABrokenHandshake s).1
    · rw [acceptedIn_succ n ht, List.forall_mem_append] at ha
      obtain ⟨hacc, hlater⟩ := ha
      have hqt : t.QueueLegal := fun w hw => (mem_words_of_step ht hw).elim (hq w) (hacc w)
      rw [FaultFree, deliveredIn_succ n ht, List.forall_mem_append]
      exact ⟨fun p hp => delivered_faultFree hs hq (Option.mem_toList.1 hp),
        ih (invariantKeptByEveryStep s t hs ht) hqt hlater⟩
    · simp [FaultFree, deliveredIn, hstop]

/-- Settles O15: what is delivered answers a command that was in the queue, and only legal ones ever are. -/
theorem legalCommandsMakeFaultFreeRuns : Obligations.LegalCommandsMakeFaultFreeRuns := fun n _ hs hq ha =>
  faultFree_of_legal n hs (List.forall_mem_map.2 hq) ha

/-! ## The oldest command is answered (R318 item 2) -/

/-- Without reset and with the port free, a cycle works on the oldest command. -/
theorem step_works_on_oldest {s t : State} {f : Flight} {q : List Flight} (hr : s.input.rst = false)
    (hrsp : s.rsp = none) (hi : s.inflight = f :: q) (h : step s = .next t) :
    s.clockEdge.rsp = none ∧ (∃ q', s.clockEdge.inflight = f :: q') ∧ runHead s.clockEdge = .next t := by
  have hd : s.delivered = none := by simp [State.delivered, hrsp]
  obtain ⟨hr', -⟩ | ⟨-, ht⟩ := step_next_cases h
  · simp [hr] at hr'
  · exact ⟨(clockEdge_rsp_of_not_delivered hd).trans hrsp, nextQueue_cons hd hi, ht⟩

theorem runHead_of_wait_zero {s t : State} {w : CommandWord} {q : List Flight} (hr : s.rsp = none)
    (hi : s.inflight = ⟨w, 0⟩ :: q) (h : runHead s = .next t) : ∃ p, t.rsp = some p ∧ Answers w p := by
  have hdue : s.due = some w := (due_eq_some s w).2 ⟨hr, q, hi⟩
  obtain ⟨hd, -⟩ | ⟨v, p, hv, hp, ht⟩ := runHead_cases s
  · simp [hdue] at hd
  · obtain rfl : w = v := Option.some.inj (hdue.symm.trans hv)
    obtain rfl := Host.Outcome.next.inj (ht.symm.trans h)
    exact ⟨p, rfl, hp⟩

theorem runHead_of_wait_succ {s t : State} {w : CommandWord} {k : Nat} {q : List Flight} (hr : s.rsp = none)
    (hi : s.inflight = ⟨w, k + 1⟩ :: q) (h : runHead s = .next t) : t.rsp = none ∧ t.inflight = ⟨w, k⟩ :: q := by
  have hdue : s.due = none := by simp [State.due, hr, hi]
  obtain rfl := Host.Outcome.next.inj ((runHead_of_not_due hdue).symm.trans h)
  exact ⟨s.tick_rsp.trans hr, tick_inflight_of_wait hr hi⟩

theorem run_answers_oldest (k : Nat) {w : CommandWord} {q : List Flight} {s t : State} (hi : s.inflight = ⟨w, k⟩ :: q)
    (hrsp : s.rsp = none) (hn : NoResetIn (k + 1) s) (h : Host.Core.run Sys2Proof.core (k + 1) s = .next t) :
    ∃ p, t.rsp = some p ∧ Answers w p := by
  induction k generalizing s q with
  | zero =>
    obtain ⟨u, hu, hrun⟩ := run_cases 0 h
    obtain rfl : u = t := Host.Outcome.next.inj hrun
    have hr : s.input.rst = false := input_of_forall_take hn fun _ _ => rfl
    obtain ⟨he, ⟨q', hq'⟩, hwork⟩ := step_works_on_oldest hr hrsp hi hu
    exact runHead_of_wait_zero he hq' hwork
  | succ k ih =>
    obtain ⟨u, hu, hrun⟩ := run_cases (k + 1) h
    have hr : s.input.rst = false := input_of_forall_take hn fun _ _ => rfl
    obtain ⟨he, ⟨q', hq'⟩, hwork⟩ := step_works_on_oldest hr hrsp hi hu
    obtain ⟨hru, hiu⟩ := runHead_of_wait_succ he hq' hwork
    refine ih hiu hru ?_ hrun
    rw [NoResetIn, step_inputs hu]
    exact forall_take_tail hn

/-- Settles O17, by induction on the latency: each cycle takes one off it, and the one after the last makes the response. -/
theorem responseIsPresentedInFiniteTime : Obligations.ResponseIsPresentedInFiniteTime := by
  intro k w q s t hi hrsp hn h
  obtain ⟨p, hp, ha⟩ := run_answers_oldest k hi hrsp hn h
  exact ⟨by simp [State.rspValid, hp], p, hp, ha⟩

/-! ## The command port opens (R318 item 1) -/

/-- While `cmd_ready` is 0 a cycle does not make the queue longer. -/
theorem step_length_le {s t : State} (hc : s.cmdReady = false) (h : step s = .next t) :
    t.inflight.length ≤ s.inflight.length := by
  obtain ⟨-, rfl⟩ | ⟨hr, -⟩ := step_next_cases h
  · simp
  · have ha : s.accepted = none := Option.eq_none_iff_forall_ne_some.2 fun w hw => by
      simpa [hc] using (accepted_cmdReady s w hw).1
    have hw := congrArg List.length (step_words hr h)
    rw [ha, Option.toList_none, List.append_nil, List.length_map, List.length_map] at hw
    rw [hw]
    split <;> simp

theorem step_cycle {s t : State} (h : step s = .next t) : t.cycle = s.cycle + 1 := by
  obtain ⟨-, rfl⟩ | ⟨-, ht⟩ := step_next_cases h
  · rfl
  · obtain ⟨-, hw⟩ | ⟨w, p, -, -, hw⟩ := runHead_cases s.clockEdge
    · obtain rfl := Host.Outcome.next.inj (hw.symm.trans ht)
      simp
    · obtain rfl := Host.Outcome.next.inj (hw.symm.trans ht)
      rfl

/-- A queue with room opens its port in the first cycle in which the block does not hold `cmd_ready` at 0 by choice: until
then nothing is accepted. -/
theorem run_cmdReady (n : Nat) {s t : State} (hroom : s.inflight.length < queueDepth)
    (hheld : ∀ j < n, readyChoice Config.freeReadyGap (s.cycle + j) = false)
    (hopen : readyChoice Config.freeReadyGap (s.cycle + n) = true)
    (h : Host.Core.run Sys2Proof.core n s = .next t) : t.cmdReady = true := by
  induction n generalizing s with
  | zero =>
    obtain rfl : s = t := Host.Outcome.next.inj h
    simpa [State.cmdReady, hroom] using hopen
  | succ n ih =>
    obtain ⟨u, hu, hrun⟩ := run_cases n h
    have hc : s.cmdReady = false := by simpa [State.cmdReady] using fun _ => hheld 0 n.succ_pos
    have hcycle (j : Nat) : u.cycle + j = s.cycle + (j + 1) := by rw [step_cycle hu]; omega
    refine ih ((step_length_le hc hu).trans_lt hroom) (fun j hj => ?_) ?_ hrun
    · rw [hcycle]
      exact hheld (j + 1) (Nat.succ_lt_succ hj)
    · rwa [hcycle]

/-- Settles O18: the number is the least one after which the block's own choice is not to hold `cmd_ready` at 0. -/
theorem commandPortOpensInFiniteTime : Obligations.CommandPortOpensInFiniteTime := by
  intro s hroom
  have hex := readyChoice_again Config.freeReadyGap s.cycle
  exact ⟨Nat.find hex, fun ins t h => run_cmdReady (s := { s with inputs := ins }) _ hroom
    (fun j hj => by simpa using Nat.find_min hex hj) (Nat.find_spec hex) h⟩

end Sys2Proof.Machine
